-- ==== Sys2Proof/Word.lean ====
section
/-!
DEFINITION. The widths of the FCE's values (spec/00_scope.md R8, R17). Every FCE value is an unsigned bit vector.
-/

namespace Sys2Proof

/-- One 8-bit group of a half-block, and one field of LEN (R8, R33). -/
abbrev Byte := BitVec 8

/-- A 32-bit value: a bus word, a half-block or a round subkey (R8, R72). -/
abbrev Word := BitVec 32

/-- A 64-bit block (R8, R31). -/
abbrev Block := BitVec 64

/-- A 56-bit master key (R8, R32). -/
abbrev Key := BitVec 56

/-- One 28-bit half of the key (R8, R40). -/
abbrev KeyHalf := BitVec 28

end Sys2Proof
end

