-- ==== Sys2Proof/Syntax.lean ====
section
/-!
DEFINITION. The FCE's operations (spec/30_encoding.md R100, R113): the bus access as the FCE's port sees it, and one
constructor of `Instr` for each row of spec/opcode_table.json.
-/

namespace Sys2Proof

/-- The eight registers of the window (20_memory.md R71). -/
inductive Reg where
  | cmd
  | status
  | config
  | len
  | blkHi
  | blkLo
  | keyHi
  | keyLo
  deriving DecidableEq, Repr

/-- The direction of a bus access, and the 32-bit word a write carries (20_memory.md R72). -/
inductive BusDir where
  | read
  | write (data : Word)
  deriving DecidableEq, Repr

/-- A bus access that reached the FCE: its byte offset `off = addr - BASE` in the 32-byte window (20_memory.md R70,
R74), its width in bytes, and its direction (log entry 11). -/
structure Access where
  off : BitVec 5
  size : Nat
  dir : BusDir
  deriving DecidableEq, Repr

/-- The operations of the FCE: the four commands of a CMD write, the fifteen other register accesses, and the access
that gets a BusError (30_encoding.md R113; one constructor per row of spec/opcode_table.json). -/
inductive Instr where
  /-- NOP: `W 0x00 0x00000000` (43_engine_commands.md R221). -/
  | nop
  /-- ENC: `W 0x00 0x00000001` (R222). -/
  | enc
  /-- DEC: `W 0x00 0x00000002` (R223). -/
  | dec
  /-- ILLEGAL: `W 0x00 w` for any other word `w` (R229). -/
  | illegal (w : Word)
  /-- RD_CMD: `R 0x00` (R244). -/
  | rdCmd
  /-- RD_STATUS: `R 0x04` (R242). -/
  | rdStatus
  /-- WR_STATUS: `W 0x04 v` (R238). -/
  | wrStatus (v : Word)
  /-- RD_CONFIG: `R 0x08` (R243). -/
  | rdConfig
  /-- WR_CONFIG: `W 0x08 v` (R238). -/
  | wrConfig (v : Word)
  /-- RD_LEN: `R 0x0C` (R241). -/
  | rdLen
  /-- WR_LEN: `W 0x0C v` (R237). -/
  | wrLen (v : Word)
  /-- RD_BLK_HI: `R 0x10` (R239). -/
  | rdBlkHi
  /-- WR_BLK_HI: `W 0x10 v` (R233). -/
  | wrBlkHi (v : Word)
  /-- RD_BLK_LO: `R 0x14` (R239). -/
  | rdBlkLo
  /-- WR_BLK_LO: `W 0x14 v` (R234). -/
  | wrBlkLo (v : Word)
  /-- RD_KEY_HI: `R 0x18` (R240). -/
  | rdKeyHi
  /-- WR_KEY_HI: `W 0x18 v` (R235). -/
  | wrKeyHi (v : Word)
  /-- RD_KEY_LO: `R 0x1C` (R240). -/
  | rdKeyLo
  /-- WR_KEY_LO: `W 0x1C v` (R236). -/
  | wrKeyLo (v : Word)
  /-- BUS_ERROR: an access in the window that is misaligned or not 32 bits wide (20_memory.md R73). -/
  | busError (off : BitVec 5) (size : Nat) (dir : BusDir)
  deriving DecidableEq, Repr

end Sys2Proof
end

