-- ==== Sys2Proof/WellFormed.lean ====
section
/-!
DEFINITION. Which terms of `Instr` stand for an operation of the FCE: the two rows of the operation map that are
given by exclusion carry their condition here (spec/30_encoding.md R103, R113; spec/20_memory.md R73).
-/

namespace Sys2Proof

/-- A legal command word: exactly 0x00000000, 0x00000001 and 0x00000002 (30_encoding.md R103). -/
def legalCmdWord (w : Word) : Bool := w == 0#32 || w == 1#32 || w == 2#32

/-- The accesses the FCE accepts: 32 bits wide, at an offset that is a multiple of 4 (20_memory.md R72, R73). -/
def accepted (off : BitVec 5) (size : Nat) : Bool := size == 4 && off.toNat % 4 == 0

/-- ILLEGAL carries a word that is no legal command; BUS_ERROR carries an access that is not accepted. -/
def Instr.wf : Instr → Bool
  | .nop => true
  | .enc => true
  | .dec => true
  | .illegal w => !legalCmdWord w
  | .rdCmd => true
  | .rdStatus => true
  | .wrStatus _ => true
  | .rdConfig => true
  | .wrConfig _ => true
  | .rdLen => true
  | .wrLen _ => true
  | .rdBlkHi => true
  | .wrBlkHi _ => true
  | .rdBlkLo => true
  | .wrBlkLo _ => true
  | .rdKeyHi => true
  | .wrKeyHi _ => true
  | .rdKeyLo => true
  | .wrKeyLo _ => true
  | .busError off size _ => !accepted off size

end Sys2Proof
end

