-- ==== Sys2Proof/Decode.lean ====
section
/-!
DEFINITION. Decoding of bus accesses and command words, and the encoder, both from the operation map
(spec/20_memory.md R71, R73; spec/30_encoding.md R101 to R103, R113, R116).

Decoding is total: every access that reaches the window is one row of the map, and every 32-bit word written to CMD is
NOP, ENC, DEC or ILLEGAL (R103). Nothing is left to reject: the reserved command words have the defined meaning ILLEGAL
(R112), and the accesses the bus does not accept have the defined meaning BusError (R73).
-/

namespace Sys2Proof

/-- The offset of a register (20_memory.md R71). -/
def Reg.off : Reg → BitVec 5
  | .cmd => 0x00#5
  | .status => 0x04#5
  | .config => 0x08#5
  | .len => 0x0C#5
  | .blkHi => 0x10#5
  | .blkLo => 0x14#5
  | .keyHi => 0x18#5
  | .keyLo => 0x1C#5

/-- The register at an offset; none where the offset is not a multiple of 4 (20_memory.md R71, R73). -/
def Reg.atOff (off : BitVec 5) : Option Reg :=
  match off.toNat with
  | 0x00 => some .cmd
  | 0x04 => some .status
  | 0x08 => some .config
  | 0x0C => some .len
  | 0x10 => some .blkHi
  | 0x14 => some .blkLo
  | 0x18 => some .keyHi
  | 0x1C => some .keyLo
  | _ => none

/-- Decoding a command word, a total function on all 2^32 values (30_encoding.md R103). -/
def decodeCmd (w : Word) : Instr :=
  if w.extractLsb' 4 28 ≠ 0#28 then .illegal w
  else
    match (w.extractLsb' 0 4).toNat with
    | 0x0 => .nop
    | 0x1 => .enc
    | 0x2 => .dec
    | _ => .illegal w

/-- A 32-bit access to a register (30_encoding.md R113). -/
def decodeReg (r : Reg) (d : BusDir) : Instr :=
  match r, d with
  | .cmd, .read => .rdCmd
  | .cmd, .write w => decodeCmd w
  | .status, .read => .rdStatus
  | .status, .write v => .wrStatus v
  | .config, .read => .rdConfig
  | .config, .write v => .wrConfig v
  | .len, .read => .rdLen
  | .len, .write v => .wrLen v
  | .blkHi, .read => .rdBlkHi
  | .blkHi, .write v => .wrBlkHi v
  | .blkLo, .read => .rdBlkLo
  | .blkLo, .write v => .wrBlkLo v
  | .keyHi, .read => .rdKeyHi
  | .keyHi, .write v => .wrKeyHi v
  | .keyLo, .read => .rdKeyLo
  | .keyLo, .write v => .wrKeyLo v

/-- Decoding a bus access: an access that is not 32 bits wide or not aligned gets a BusError (20_memory.md R73), every
other one is the row of the operation map its register and direction select (30_encoding.md R113). -/
def decode (a : Access) : Instr :=
  if a.size ≠ 4 then .busError a.off a.size a.dir
  else
    match Reg.atOff a.off with
    | none => .busError a.off a.size a.dir
    | some r => decodeReg r a.dir

/-- The bus write that issues the command word `w` (43_engine_commands.md R220). -/
def cmdWrite (w : Word) : Access := ⟨Reg.cmd.off, 4, .write w⟩

/-- `MemRead(BASE + offset(r), 4)` as the FCE's port sees it (00_scope.md R20). -/
def regRead (r : Reg) : Access := ⟨r.off, 4, .read⟩

/-- `MemWrite(BASE + offset(r), 4, v)` as the FCE's port sees it (00_scope.md R20). -/
def regWrite (r : Reg) (v : Word) : Access := ⟨r.off, 4, .write v⟩

/-- The encoding of an operation is its bus transaction, `W off data` or `R off` (30_encoding.md R113, R116). -/
def encode : Instr → Access
  | .nop => cmdWrite 0x00000000#32
  | .enc => cmdWrite 0x00000001#32
  | .dec => cmdWrite 0x00000002#32
  | .illegal w => cmdWrite w
  | .rdCmd => regRead .cmd
  | .rdStatus => regRead .status
  | .wrStatus v => regWrite .status v
  | .rdConfig => regRead .config
  | .wrConfig v => regWrite .config v
  | .rdLen => regRead .len
  | .wrLen v => regWrite .len v
  | .rdBlkHi => regRead .blkHi
  | .wrBlkHi v => regWrite .blkHi v
  | .rdBlkLo => regRead .blkLo
  | .wrBlkLo v => regWrite .blkLo v
  | .rdKeyHi => regRead .keyHi
  | .wrKeyHi v => regWrite .keyHi v
  | .rdKeyLo => regRead .keyLo
  | .wrKeyLo v => regWrite .keyLo v
  | .busError off size dir => ⟨off, size, dir⟩

/-- The instruction decoded from a word of spec/opcode_table.json: the table gives bits to the CMD rows alone, whose
word is the 32-bit datum of a write to CMD (30_encoding.md R101). No command is longer than 32 bits (R100). -/
def decodeTableWord (nbits w : Nat) : Option Instr :=
  if nbits ≤ 32 ∧ w < 2 ^ 32 then some (decode (cmdWrite (BitVec.ofNat 32 w))) else none

end Sys2Proof
end

