-- ==== Sys2Proof/Config.lean ====
section
/-!
DEFINITION. The build parameters of the FCE (spec/00_scope.md R9 to R13) and the free values that stand for the two
tables whose contents no source gives (R7, R11, R12).

A `Build` is the constant tuple `(NR, ROT, SBOX, PTABLE, SWAP_MODE)` that 10_state.md R30 puts beside the state of an
instance. State holds it, so that a statement about every state is a statement about every build (log entry 2).
-/

namespace Sys2Proof

/-- SWAP_MODE: where the half-swap goes that makes decryption invert encryption (00_scope.md R13). The literal loop
with no swap is not a legal value, so it has no constructor. -/
inductive SwapMode where
  | decBracket
  | finalSwap
  deriving DecidableEq, Repr

/-- The constant parameters of one FCE instance (00_scope.md R9 to R13; 10_state.md R30, R47). -/
structure Build where
  /-- NR: rounds per block, and subkeys per load (R9). -/
  nr : Nat
  /-- ROT: the left rotation of each key half per generation step (R10). -/
  rot : Nat
  /-- SWAP_MODE (R13). -/
  swapMode : SwapMode
  /-- SBOX: entry `x` replaces the byte `x` (R11). It need not be a bijection (R139). -/
  sbox : Vector Byte 256
  /-- PTABLE: entry `i` is the 1-indexed input position that output position `i` takes (R12). -/
  ptable : Vector Nat 32
  deriving DecidableEq, Repr

/-- The source's integrity condition on PTABLE: it "contains each integer 1..32 exactly once" (R12, R140). -/
def ptableOk (t : Vector Nat 32) : Bool :=
  (List.range 32).all fun k => t.toList.count (k + 1) == 1

/-- The legal builds: `1 <= NR <= 255` (R9), `0 <= ROT <= 27` (R10) and a legal PTABLE (R12). -/
def Build.wf (b : Build) : Bool :=
  decide (1 ≤ b.nr) && decide (b.nr ≤ 255) && decide (b.rot ≤ 27) && ptableOk b.ptable

/-- The identity table `PTABLE[i] = i + 1`, one of the legal ones (40_primitives.md R136). -/
def identityPtable : Vector Nat 32 := Vector.ofFn fun i => i.val + 1

/-- FREE VALUE. The contents of the Substitution Table, which no source gives (R7, R11; log entry 2). -/
opaque Config.sbox : Vector Byte 256

/-- FREE VALUE. The contents of the Permutation Table, before its integrity condition (R7, R12; log entry 3). -/
opaque Config.anyPtable : Vector Nat 32

/-- The Permutation Table of the default build: any legal table, and no table in particular. The condition of R12 is a
premise every model takes (R140), so a table that breaks it is replaced by a legal one (log entry 3). -/
def Config.ptable : Vector Nat 32 :=
  if ptableOk Config.anyPtable then Config.anyPtable else identityPtable

/-- The default build: NR = 10 (R9), ROT = 1 (R10), SWAP_MODE = DEC_BRACKET (R13), and the open tables. -/
def Config.build : Build where
  nr := 10
  rot := 1
  swapMode := .decBracket
  sbox := Config.sbox
  ptable := Config.ptable

end Sys2Proof
end

