-- ==== Sys2Proof/Machine/State.lean ====
section
/-!
DEFINITION. The state of one FCE instance (spec/10_state.md), its reset values (R48), and the reasons a step can stop.
-/

namespace Sys2Proof.Machine

/-- The error codes of STATUS.ERR (60_exceptions.md R261). The reserved codes 0x7 to 0xF are never written by the FCE,
so they have no constructor (93_implementation_defined.md I14; log entry 9). -/
inductive ErrCode where
  | none
  | illegalCmd
  | blockLen
  | keyLen
  | ksUninit
  | ksMixed
  | ksExhausted
  deriving DecidableEq, Repr

/-- KS.state (10_state.md R42). -/
inductive KsState where
  | uninit
  | sched
  | exhausted
  deriving DecidableEq, Repr

/-- KS.dir, the direction the scheduler is locked to (10_state.md R43). -/
inductive KsDir where
  | none
  | enc
  | dec
  deriving DecidableEq, Repr

/-- The direction of a command: ENG.dir (10_state.md R46). -/
inductive Dir where
  | enc
  | dec
  deriving DecidableEq, Repr

/-- ENG.phase (10_state.md R46). -/
inductive Phase where
  | idle
  | run
  deriving DecidableEq, Repr

/-- The length-descriptor register LEN (10_state.md R33). -/
structure LenReg where
  blkBits : Byte
  keyBits : Byte
  deriving DecidableEq, Repr

/-- The key scheduler (10_state.md R40 to R44). `sk` holds `KS.SK[0] .. KS.SK[NR-1]` in generation order. -/
structure Scheduler where
  /-- KS.L (R40). -/
  l : KeyHalf
  /-- KS.R (R40). -/
  r : KeyHalf
  /-- KS.SK (R41). -/
  sk : List Word
  /-- KS.state (R42). -/
  state : KsState
  /-- KS.dir (R43). -/
  dir : KsDir
  /-- KS.taken (R44), a count; STATUS shows its 8 bits (log entry 10). -/
  taken : Nat
  deriving DecidableEq, Repr

/-- The engine sequencer (10_state.md R46). -/
structure Engine where
  /-- ENG.phase. -/
  phase : Phase
  /-- ENG.dir. -/
  dir : Dir
  /-- ENG.round; like ENG.dir and ENG.W it keeps its last value after a command (DEDUCED, log entry 10). -/
  round : Nat
  /-- ENG.W. -/
  w : Block
  deriving DecidableEq, Repr

/-- What comes to the FCE from outside: a bus access, or an assertion of its one reset input (20_memory.md R80;
70_reset_and_hazards.md R290). -/
inductive Input where
  | access (a : Access)
  | reset
  deriving DecidableEq, Repr

/-- How the FCE answers a bus access: the word a read returns, the completion of a write, or the BusError response
(20_memory.md R72, R73, R80). -/
inductive Reply where
  | data (w : Word)
  | done
  | busError
  deriving DecidableEq, Repr

/-- The state of one FCE instance (10_state.md R30), with its constant parameters beside it, and two fields of the
model's own (log entry 5): the inputs that have yet to reach the FCE and the answers it has given. -/
structure State where
  /-- NR, ROT, SBOX, PTABLE and SWAP_MODE, which nothing changes (R30, R47; log entry 2). -/
  build : Build
  /-- BLK (R31). -/
  blk : Block
  /-- KEY (R32). -/
  key : Key
  /-- LEN (R33). -/
  len : LenReg
  /-- STATUS.ERR (R34, R39). -/
  err : ErrCode
  /-- The key scheduler (R40 to R44). -/
  ks : Scheduler
  /-- The engine sequencer (R46). -/
  eng : Engine
  /-- MODEL'S OWN: the inputs the outside gives the FCE, in the order it receives them (20_memory.md R80, R82). -/
  pending : List Input
  /-- MODEL'S OWN: the answers given so far, oldest first (70_reset_and_hazards.md R300). -/
  replies : List Reply
  deriving DecidableEq, Repr

/-- What a subkey retrieval answers (42_key_scheduler.md R188 to R190): a subkey and the scheduler after it, an error
code with the scheduler unchanged, or no entry of the store at the index (no scheduler that KS_LOAD leaves does that). -/
inductive KsResult where
  | ok (k : Word) (ks : Scheduler)
  | raise (e : ErrCode)
  | noEntry
  deriving DecidableEq, Repr

/-- Why a step stops. Both are unreachable, from every state (60_exceptions.md R267; log entry 8). -/
inductive Fault where
  /-- Raised by the round phase of ENC and DEC where a retrieval fails. The spec asks a model to treat that as a fault
  of the model (60_exceptions.md R267; 43_engine_commands.md R228). Safe. -/
  | schedulerRaised (e : ErrCode)
  /-- Raised by the round phase of ENC and DEC where the subkey store has no entry at the index: the store has NR
  entries (10_state.md R41). Safe. -/
  | subkeyStoreRange
  deriving DecidableEq, Repr

/-- Why a step has no meaning. -/
inductive Refusal where
  /-- Raised by `serveAccess`, so by a step, for an access that is misaligned or not 32 bits wide: "A model refuses such an
  access, which errs toward unprovable" (20_memory.md R73; 93_implementation_defined.md I17; log entry 1). Safe. -/
  | busErrorAccess
  /-- Raised by `exec`, and by nothing else, for an instruction that has no meaning yet; there is none. Safe. -/
  | notModelled (mnemonic : String)
  deriving DecidableEq, Repr

/-- The scheduler after reset, for a build with `nr` rounds (10_state.md R48). -/
def Scheduler.reset (nr : Nat) : Scheduler where
  l := 0#28
  r := 0#28
  sk := List.replicate nr 0#32
  state := .uninit
  dir := .none
  taken := 0

/-- The engine sequencer after reset (10_state.md R48). -/
def Engine.reset : Engine where
  phase := .idle
  dir := .enc
  round := 0
  w := 0#64

/-- The instance built with `b`, right after reset (10_state.md R48; 70_reset_and_hazards.md R290). -/
def State.resetOf (b : Build) : State where
  build := b
  blk := 0#64
  key := 0#56
  len := ⟨64#8, 56#8⟩
  err := .none
  ks := Scheduler.reset b.nr
  eng := Engine.reset
  pending := []
  replies := []

/-- A model "should reject" an illegal table "when it builds its parameters, not at run time" (95_test_vectors.md L1-6;
00_scope.md R12): an instance exists for the legal builds only. -/
def State.ofBuild? (b : Build) : Option State :=
  if b.wf then some (State.resetOf b) else none

/-- The machine right after reset: the default build (00_scope.md R9, R10, R13), its tables free values. -/
def State.reset : State := State.resetOf Config.build

end Sys2Proof.Machine
end

