-- ==== Sys2Proof/Machine/Flags.lean ====
section
/-!
DEFINITION. The encodings of the status fields and the two read-only words composed of them (spec/30_encoding.md R104,
R105, R108; spec/60_exceptions.md R261).
-/

namespace Sys2Proof.Machine

/-- The codes of STATUS.ERR (60_exceptions.md R261). -/
def ErrCode.code : ErrCode → BitVec 4
  | .none => 0x0#4
  | .illegalCmd => 0x1#4
  | .blockLen => 0x2#4
  | .keyLen => 0x3#4
  | .ksUninit => 0x4#4
  | .ksMixed => 0x5#4
  | .ksExhausted => 0x6#4

/-- The codes of STATUS.KS_STATE (30_encoding.md R105). -/
def KsState.code : KsState → BitVec 2
  | .uninit => 0#2
  | .sched => 1#2
  | .exhausted => 2#2

/-- The codes of STATUS.KS_DIR (30_encoding.md R105). -/
def KsDir.code : KsDir → BitVec 2
  | .none => 0#2
  | .enc => 1#2
  | .dec => 2#2

/-- The bit CONFIG.SWAP_MODE (30_encoding.md R108). -/
def swapModeBit : SwapMode → BitVec 1
  | .decBracket => 0#1
  | .finalSwap => 1#1

/-- STATUS: `zext_32(KS_TAKEN || KS_DIR || KS_STATE || ERR)` (43_engine_commands.md R242; 30_encoding.md R104). -/
def statusView (s : State) : Word :=
  (BitVec.ofNat 8 s.ks.taken ++ s.ks.dir.code ++ s.ks.state.code ++ s.err.code).setWidth 32

/-- CONFIG: `zext_32(SWAP_MODE || ROT[4:0] || NR[7:0])` (43_engine_commands.md R243; 30_encoding.md R108). -/
def configView (s : State) : Word :=
  (swapModeBit s.build.swapMode ++ BitVec.ofNat 5 s.build.rot ++ BitVec.ofNat 8 s.build.nr).setWidth 32

end Sys2Proof.Machine
end

