-- ==== Sys2Proof/Machine/Bits.lean ====
section
/-!
DEFINITION. The bit-field helpers and operators that every rule uses (spec/00_scope.md R17 to R19), and the halves of a
block and of a key (spec/10_state.md R31, R32).
-/

namespace Sys2Proof.Machine

/-- `pos_N(v, p) = v[N-1-p]`: position 0 is the most significant bit (00_scope.md R18). -/
def pos {n : Nat} (v : BitVec n) (p : Nat) : Bool := v.getMsbD p

/-- `rotl_28(x, r)`: rotation toward the most significant bit, the amount taken modulo 28 (00_scope.md R19). -/
def rotl28 (x : KeyHalf) (r : Nat) : KeyHalf := x.rotateLeft r

/-- The left half `B[63:32]`, positions 0..31 (10_state.md R31). -/
def leftHalf (b : Block) : Word := b.extractLsb' 32 32

/-- The right half `B[31:0]`, positions 32..63 (10_state.md R31). -/
def rightHalf (b : Block) : Word := b.extractLsb' 0 32

/-- `left || right`: "concatenation, left half first" (41_round_function.md R163). -/
def joinHalves (l r : Word) : Block := l ++ r

/-- `swap_64(B) = B[31:0] || B[63:32]` (00_scope.md R19). -/
def swap64 (b : Block) : Block := joinHalves (rightHalf b) (leftHalf b)

/-- The key's first 28 bits, `K[55:28]` (42_key_scheduler.md R183). -/
def keyLeft (k : Key) : KeyHalf := k.extractLsb' 28 28

/-- The key's last 28 bits, `K[27:0]` (42_key_scheduler.md R183). -/
def keyRight (k : Key) : KeyHalf := k.extractLsb' 0 28

/-- `L || R`, the 56-bit full key (42_key_scheduler.md R186). -/
def joinKey (l r : KeyHalf) : Key := l ++ r

/-- "the first 32 bits of that full key": `full[55:24]` (42_key_scheduler.md R186). -/
def firstBits (full : Key) : Word := full.extractLsb' 24 32

end Sys2Proof.Machine
end

