-- ==== Sys2Proof/Machine/Operands.lean ====
section
/-!
DEFINITION. The HI/LO word views through which the host reads and writes BLK, KEY and LEN, and by which a command's
operands are assembled (spec/20_memory.md R76, R77; spec/30_encoding.md R106, R107, R109, R111). Reserved bits read 0
and ignore writes (R110).
-/

namespace Sys2Proof.Machine

/-- BLK_HI = BLK[63:32] (R76). -/
def blkHiView (s : State) : Word := leftHalf s.blk

/-- BLK_LO = BLK[31:0] (R76). -/
def blkLoView (s : State) : Word := rightHalf s.blk

/-- KEY_HI: KEY[55:32] in bits [23:0], bits [31:24] read 0 (R77, R107). -/
def keyHiView (s : State) : Word := (s.key.extractLsb' 32 24).setWidth 32

/-- KEY_LO = KEY[31:0] (R77). -/
def keyLoView (s : State) : Word := s.key.extractLsb' 0 32

/-- LEN: `zext_32(KEY_BITS || BLK_BITS)` (R106; 43_engine_commands.md R241). -/
def lenView (s : State) : Word := (s.len.keyBits ++ s.len.blkBits).setWidth 32

/-- `BLK[63:32] <- v`, BLK[31:0] kept (43_engine_commands.md R233). -/
def setBlkHi (v : Word) (s : State) : State := { s with blk := joinHalves v (rightHalf s.blk) }

/-- `BLK[31:0] <- v`, BLK[63:32] kept (43_engine_commands.md R234). -/
def setBlkLo (v : Word) (s : State) : State := { s with blk := joinHalves (leftHalf s.blk) v }

/-- `KEY[55:32] <- v[23:0]`, v[31:24] ignored, KEY[31:0] kept (43_engine_commands.md R235). -/
def setKeyHi (v : Word) (s : State) : State :=
  { s with key := v.extractLsb' 0 24 ++ s.key.extractLsb' 0 32 }

/-- `KEY[31:0] <- v`, KEY[55:32] kept (43_engine_commands.md R236). -/
def setKeyLo (v : Word) (s : State) : State := { s with key := s.key.extractLsb' 32 24 ++ v }

/-- `LEN.BLK_BITS <- v[7:0]` and `LEN.KEY_BITS <- v[15:8]`, v[31:16] ignored, nothing checked
(43_engine_commands.md R237). -/
def setLen (v : Word) (s : State) : State :=
  { s with len := ⟨v.extractLsb' 0 8, v.extractLsb' 8 8⟩ }

end Sys2Proof.Machine
end

