-- ==== Sys2Proof/Machine/Ops.lean ====
section
/-!
DEFINITION. The operations that the meanings share: completing a bus access (spec/20_memory.md R80), raising an error
(spec/60_exceptions.md R260, R263), and reset (spec/70_reset_and_hazards.md R290).
-/

namespace Sys2Proof.Machine

/-- The answer of the FCE to a bus access. -/
abbrev Result := Host.Outcome State Fault Refusal

/-- A bus access completes with an answer (20_memory.md R80). -/
def answer (r : Reply) (s : State) : State := { s with replies := s.replies ++ [r] }

/-- A read completes: it returns `w` and has no side effect (20_memory.md R81). -/
def completeRead (w : Word) (s : State) : Result := .next (answer (.data w) s)

/-- A write completes, having left the state `s` (20_memory.md R80). -/
def completeWrite (s : State) : Result := .next (answer .done s)

/-- The bus write that issued a command completes when the command has finished (20_memory.md R80). A command that
ends in a fault of the model does not finish. -/
def completeCommand : Result → Result
  | .next s => completeWrite s
  | .fault r => .fault r
  | .refused r => .refused r

/-- `raise E`, for the errors a host can provoke: the command ends with the code in ERR and commits nothing else. No
trap is taken, nothing is saved and there is nothing to return from (00_scope.md R20; 60_exceptions.md R260, R263,
R271, R272). -/
def raiseErr (e : ErrCode) (s : State) : State := { s with err := e }

/-- Reset: every piece of the FCE's state takes its reset value, whatever the engine was doing; the build parameters are
not affected (70_reset_and_hazards.md R290, R291). The inputs still to come and the answers already given are the
outside's, and are kept; a write under way is never answered (DESIGN
CHOICE, log entry 7). -/
def applyReset (s : State) : State :=
  { State.resetOf s.build with pending := s.pending, replies := s.replies }

end Sys2Proof.Machine
end

