-- ==== Sys2Proof/Machine/Accesses.lean ====
section
/-!
DEFINITION. The meanings of the host register accesses (spec/43_engine_commands.md section 2) and of the access that gets
a BusError (spec/20_memory.md R73).
-/

namespace Sys2Proof.Machine

/-- Read CMD: 0, always; no command is issued (R244). -/
def execRdCmd (s : State) : Result := completeRead 0#32 s

/-- Read STATUS; ERR is not cleared (R242). -/
def execRdStatus (s : State) : Result := completeRead (statusView s) s

/-- Write STATUS: no effect, and no error (R238). -/
def execWrStatus (_v : Word) (s : State) : Result := completeWrite s

/-- Read CONFIG (R243). -/
def execRdConfig (s : State) : Result := completeRead (configView s) s

/-- Write CONFIG: no effect, and no error (R238). -/
def execWrConfig (_v : Word) (s : State) : Result := completeWrite s

/-- Read LEN (R241). -/
def execRdLen (s : State) : Result := completeRead (lenView s) s

/-- Write LEN (R237). -/
def execWrLen (v : Word) (s : State) : Result := completeWrite (setLen v s)

/-- Read BLK_HI (R239). -/
def execRdBlkHi (s : State) : Result := completeRead (blkHiView s) s

/-- Write BLK_HI (R233). -/
def execWrBlkHi (v : Word) (s : State) : Result := completeWrite (setBlkHi v s)

/-- Read BLK_LO (R239). -/
def execRdBlkLo (s : State) : Result := completeRead (blkLoView s) s

/-- Write BLK_LO (R234). -/
def execWrBlkLo (v : Word) (s : State) : Result := completeWrite (setBlkLo v s)

/-- Read KEY_HI (R240). -/
def execRdKeyHi (s : State) : Result := completeRead (keyHiView s) s

/-- Write KEY_HI (R235). -/
def execWrKeyHi (v : Word) (s : State) : Result := completeWrite (setKeyHi v s)

/-- Read KEY_LO (R240). -/
def execRdKeyLo (s : State) : Result := completeRead (keyLoView s) s

/-- Write KEY_LO (R236). -/
def execWrKeyLo (v : Word) (s : State) : Result := completeWrite (setKeyLo v s)

/-- BUS_ERROR: the access "gets a bus error response" and "changes no FCE state: no register, no scheduler field and no
ERR" (20_memory.md R73; 60_exceptions.md R269). This is what the FCE does; that a run refuses such an access is `serveAccess`
(log entry 1). -/
def execBusError (_off : BitVec 5) (_size : Nat) (_dir : BusDir) (s : State) : Result :=
  .next (answer .busError s)

end Sys2Proof.Machine
end

