-- ==== Sys2Proof/Machine/Primitives.lean ====
section
/-!
DEFINITION. The substitution/permutation primitives (spec/40_primitives.md): pure, total functions of their operands and
of the constant tables (R130).
-/

namespace Sys2Proof.Machine

/-- `XOR32(a, b)` (40_primitives.md R131). -/
def xor32 (a b : Word) : Word := a ^^^ b

/-- `SBOX(x)`, the table entry at the byte's unsigned value (40_primitives.md R133, R134). -/
def sboxAt (b : Build) (x : Byte) : Byte := b.sbox[x.toNat]'x.isLt

/-- `SUBST32(x)`: the table applied to each of the four byte groups (40_primitives.md R133). -/
def subst32 (b : Build) (x : Word) : Word :=
  sboxAt b (x.extractLsb' 24 8) ++ sboxAt b (x.extractLsb' 16 8) ++
    sboxAt b (x.extractLsb' 8 8) ++ sboxAt b (x.extractLsb' 0 8)

/-- The output bits of PERM32 from position 0 on: each entry of PTABLE names the 1-indexed input position its output
position takes (40_primitives.md R136). -/
def permBits (b : Build) (y : Word) : List Bool :=
  b.ptable.toList.map fun entry => pos y (entry - 1)

/-- `PERM32(y)`, a gather: `pos_32(z, i) = pos_32(y, PTABLE[i] - 1)` (40_primitives.md R136). -/
def perm32 (b : Build) (y : Word) : Word :=
  (BitVec.ofBoolListBE (permBits b y)).cast (by simp [permBits])

end Sys2Proof.Machine
end

