-- ==== Sys2Proof/Machine/Round.lean ====
section
/-!
DEFINITION. The round function, the block combiner and the swap placement (spec/41_round_function.md).
-/

namespace Sys2Proof.Machine

/-- The f-function: key mixing, then substitution, then permutation (41_round_function.md R162). -/
def fFun (b : Build) (r k : Word) : Word := perm32 b (subst32 b (xor32 r k))

/-- `ROUND(B, k) = R || (L ^ F(R, k))` (41_round_function.md R161, R163, R164). -/
def roundFn (b : Build) (blk : Block) (k : Word) : Block :=
  joinHalves (rightHalf blk) (xor32 (leftHalf blk) (fFun b (rightHalf blk) k))

end Sys2Proof.Machine
end

