-- ==== Sys2Proof/Machine/Scheduler.lean ====
section
/-!
DEFINITION. The key scheduler's operations (spec/42_key_scheduler.md).
-/

namespace Sys2Proof.Machine

/-- `next(L, R)`, the generation step: rotate each half, join them, and take the first 32 bits (R186). -/
def ksNext (rot : Nat) (l r : KeyHalf) : KeyHalf × KeyHalf × Word :=
  let l' := rotl28 l rot
  let r' := rotl28 r rot
  (l', r', firstBits (joinKey l' r'))

/-- The loop of KS_LOAD: `n` generation steps from the halves `l` and `r`, giving the halves after them and the subkeys
in generation order (R184). -/
def ksGenerate (rot : Nat) : Nat → KeyHalf → KeyHalf → KeyHalf × KeyHalf × List Word
  | 0, l, r => (l, r, [])
  | n + 1, l, r =>
    let step := ksNext rot l r
    let more := ksGenerate rot n step.1 step.2.1
    (more.1, more.2.1, step.2.2 :: more.2.2)

/-- `KS_LOAD(K, kbits)`: the length check (R182), the split (R183), and all NR subkeys at once (R184). The error leaves
the caller's scheduler as it was. -/
def ksLoad (b : Build) (k : Key) (kbits : Byte) : Except ErrCode Scheduler :=
  if kbits ≠ 56#8 then .error .keyLen
  else
    let g := ksGenerate b.rot b.nr (keyLeft k) (keyRight k)
    .ok { l := g.1, r := g.2.1, sk := g.2.2, state := .sched, dir := .none, taken := 0 }

/-- The scheduler after a successful retrieval in direction `d`: one more subkey taken, the direction locked, and
EXHAUSTED when NR are taken (R188, R189). -/
def ksAdvance (nr : Nat) (d : KsDir) (ks : Scheduler) : Scheduler :=
  { ks with
    taken := ks.taken + 1
    dir := d
    state := if ks.taken + 1 = nr then .exhausted else ks.state }

/-- `KS_NEXT_ENC()`: first generated, first returned (R188), its errors in the order of R190. -/
def ksNextEnc (nr : Nat) (ks : Scheduler) : KsResult :=
  if ks.state = .uninit then .raise .ksUninit
  else if ks.dir = .dec then .raise .ksMixed
  else if ks.taken = nr then .raise .ksExhausted
  else
    match ks.sk[ks.taken]? with
    | some s => .ok s (ksAdvance nr .enc ks)
    | none => .noEntry

/-- `KS_NEXT_DEC()`: last generated, first returned (R189), its errors in the order of R190. -/
def ksNextDec (nr : Nat) (ks : Scheduler) : KsResult :=
  if ks.state = .uninit then .raise .ksUninit
  else if ks.dir = .enc then .raise .ksMixed
  else if ks.taken = nr then .raise .ksExhausted
  else
    match ks.sk[nr - 1 - ks.taken]? with
    | some s => .ok s (ksAdvance nr .dec ks)
    | none => .noEntry

/-- The retrieval a command in direction `d` makes (43_engine_commands.md R224). -/
def ksNextIn (nr : Nat) (d : Dir) (ks : Scheduler) : KsResult :=
  match d with
  | .enc => ksNextEnc nr ks
  | .dec => ksNextDec nr ks

/-- `n` retrievals in one direction: the subkeys delivered, in order, and the scheduler after them; nothing where one of
them fails (R191, R192). -/
def ksRetrieve (nr : Nat) (d : Dir) : Nat → Scheduler → Option (List Word × Scheduler)
  | 0, ks => some ([], ks)
  | n + 1, ks =>
    match ksNextIn nr d ks with
    | .ok k ks' =>
      match ksRetrieve nr d n ks' with
      | some (more, last) => some (k :: more, last)
      | none => none
    | .raise _ => none
    | .noEntry => none

end Sys2Proof.Machine
end

