-- ==== Sys2Proof/Machine/Swap.lean ====
section
/-!
DEFINITION. Where SWAP_MODE places the half-swaps around the rounds of a command (spec/41_round_function.md R166).
-/

namespace Sys2Proof.Machine

/-- The column "swap before the rounds" of R166's table. -/
def swapsBefore (m : SwapMode) (d : Dir) : Bool :=
  match m, d with
  | .decBracket, .enc => false
  | .decBracket, .dec => true
  | .finalSwap, .enc => false
  | .finalSwap, .dec => false

/-- The column "swap after" of R166's table. -/
def swapsAfter (m : SwapMode) (d : Dir) : Bool :=
  match m, d with
  | .decBracket, .enc => false
  | .decBracket, .dec => true
  | .finalSwap, .enc => true
  | .finalSwap, .dec => true

/-- A half-swap that is wired in or not. -/
def swapIf (c : Bool) (b : Block) : Block := if c then swap64 b else b

end Sys2Proof.Machine
end

