-- ==== Sys2Proof/Machine/Engine.lean ====
section
/-!
DEFINITION. The engine sequencer (spec/43_engine_commands.md R224 to R228): the check phase, the round phase as a loop of
micro-steps, and completion.
-/

namespace Sys2Proof.Machine

/-- The beginning of the round phase: phase RUN, direction `d`, no round done, and the working block, swapped first where
SWAP_MODE says so (R224; 41_round_function.md R166). -/
def engStart (d : Dir) (s : State) : State :=
  { s with
    eng :=
      { phase := .run
        dir := d
        round := 0
        w := swapIf (swapsBefore s.build.swapMode d) s.blk } }

/-- One micro-step, an iteration of the loop of R224: a subkey in the command's direction, one ROUND, one more round
done. A retrieval that fails is a fault of the model (R228; 60_exceptions.md R267; log entry 8). -/
def engRound (s : State) : Result :=
  match ksNextIn s.build.nr s.eng.dir s.ks with
  | .ok k ks =>
    .next
      { s with
        ks := ks
        eng := { s.eng with w := roundFn s.build s.eng.w k, round := s.eng.round + 1 } }
  | .raise e => .fault (.schedulerRaised e)
  | .noEntry => .fault .subkeyStoreRange

/-- `n` micro-steps. -/
def engRounds : Nat → State → Result
  | 0, s => .next s
  | n + 1, s =>
    match engRound s with
    | .next s' => engRounds n s'
    | .fault r => .fault r
    | .refused r => .refused r

/-- Completion: the swap after the rounds where SWAP_MODE says so, then the result to BLK, E_NONE to ERR, and phase IDLE
(R224, R227). -/
def engFinish (s : State) : State :=
  let w := swapIf (swapsAfter s.build.swapMode s.eng.dir) s.eng.w
  { s with blk := w, err := .none, eng := { s.eng with w := w, phase := .idle } }

/-- The check phase and the start of the round phase: the block length first, then KS_LOAD with its check of the key
length (R224, R225). An error code, or the state at the start of the round phase. -/
def engBegin (d : Dir) (s : State) : Except ErrCode State :=
  if s.len.blkBits ≠ 64#8 then .error .blockLen
  else
    match ksLoad s.build s.key s.len.keyBits with
    | .error e => .error e
    | .ok ks => .ok (engStart d { s with ks := ks })

/-- `TRANSFORM(d)`: the checks, exactly NR rounds, and completion (R224, R226). -/
def transform (d : Dir) (s : State) : Result :=
  match engBegin d s with
  | .error e => .next (raiseErr e s)
  | .ok s₀ =>
    match engRounds s₀.build.nr s₀ with
    | .next s' => .next (engFinish s')
    | .fault r => .fault r
    | .refused r => .refused r

/-- What an engine in phase RUN does next: one more round while rounds are left, else completion, with which the CMD
write completes (R224; 20_memory.md R80). -/
def microStep (s : State) : Result :=
  if s.eng.round < s.build.nr then engRound s else completeWrite (engFinish s)

end Sys2Proof.Machine
end

