-- ==== Sys2Proof/Machine/Commands.lean ====
section
/-!
DEFINITION. The meanings of the four commands (spec/43_engine_commands.md section 1).
-/

namespace Sys2Proof.Machine

/-- NOP: no state is written (R221). -/
def execNop (s : State) : Result := completeWrite s

/-- ENC: `BLK <- transform_block(BLK, KEY, Encrypt)` (R222). -/
def execEnc (s : State) : Result := completeCommand (transform .enc s)

/-- DEC: `BLK <- transform_block(BLK, KEY, Decrypt)` (R223). -/
def execDec (s : State) : Result := completeCommand (transform .dec s)

/-- ILLEGAL: `ERR <- E_ILLEGAL_CMD`, and the bus write completes normally. The word is not stored (R229;
60_exceptions.md R261). -/
def execIllegal (_w : Word) (s : State) : Result := completeWrite (raiseErr .illegalCmd s)

end Sys2Proof.Machine
end

