-- ==== Sys2Proof/Machine/Dispatch.lean ====
section
/-!
DEFINITION. The meaning of each operation, one arm per constructor of Instr.
-/

namespace Sys2Proof.Machine

def exec (i : Instr) (s : State) : Host.Outcome State Fault Refusal :=
  match i with
  | .nop => Sys2Proof.Machine.execNop s
  | .enc => Sys2Proof.Machine.execEnc s
  | .dec => Sys2Proof.Machine.execDec s
  | .illegal w => Sys2Proof.Machine.execIllegal w s
  | .rdCmd => Sys2Proof.Machine.execRdCmd s
  | .rdStatus => Sys2Proof.Machine.execRdStatus s
  | .wrStatus v => Sys2Proof.Machine.execWrStatus v s
  | .rdConfig => Sys2Proof.Machine.execRdConfig s
  | .wrConfig v => Sys2Proof.Machine.execWrConfig v s
  | .rdLen => Sys2Proof.Machine.execRdLen s
  | .wrLen v => Sys2Proof.Machine.execWrLen v s
  | .rdBlkHi => Sys2Proof.Machine.execRdBlkHi s
  | .wrBlkHi v => Sys2Proof.Machine.execWrBlkHi v s
  | .rdBlkLo => Sys2Proof.Machine.execRdBlkLo s
  | .wrBlkLo v => Sys2Proof.Machine.execWrBlkLo v s
  | .rdKeyHi => Sys2Proof.Machine.execRdKeyHi s
  | .wrKeyHi v => Sys2Proof.Machine.execWrKeyHi v s
  | .rdKeyLo => Sys2Proof.Machine.execRdKeyLo s
  | .wrKeyLo v => Sys2Proof.Machine.execWrKeyLo v s
  | .busError off size dir => Sys2Proof.Machine.execBusError off size dir s

end Sys2Proof.Machine
end

