-- ==== Sys2Proof/Machine/Serve.lean ====
section
/-!
DEFINITION. How a run takes a bus access: which accesses it executes, and which it refuses (spec/20_memory.md R72, R73).
-/

namespace Sys2Proof.Machine

/-- An access that the FCE accepts is executed. Of one that it does not, `execBusError` says what the FCE does, but what
the host does after it is "the host's business", and "a model refuses such an access": the run ends, so that "no claim can
be proved about a host program that makes one" (20_memory.md R73; 60_exceptions.md R269; 70_reset_and_hazards.md R300;
log entry 1). -/
def serveAccess (a : Access) (s : State) : Result :=
  if accepted a.off a.size then exec (decode a) s else .refused .busErrorAccess

end Sys2Proof.Machine
end

