-- ==== Sys2Proof/Machine/Step.lean ====
section
/-!
DEFINITION. One step of an FCE instance. The FCE fetches no program (spec/10_state.md R38): what it does next is set by
the next input that reaches it (spec/20_memory.md R80), one at a time and in order (R82).
-/

namespace Sys2Proof.Machine

/-- One step (DESIGN CHOICE, log entry 6):
- the reset input resets the FCE, whatever it was doing (70_reset_and_hazards.md R290, R291);
- an engine in phase RUN goes on with its command, and a bus access waits (20_memory.md R80);
- an idle FCE serves the next access (R80), or refuses the run where it is not a well-formed one (R73), and with none to
  serve stays as it is (60_exceptions.md R277).
A command is one atomic step of `exec`, so no step from an idle FCE leaves phase RUN behind. -/
def step (s : State) : Host.Outcome State Fault Refusal :=
  match s.pending with
  | .reset :: rest => .next (applyReset { s with pending := rest })
  | .access a :: rest =>
    match s.eng.phase with
    | .run => microStep s
    | .idle => serveAccess a { s with pending := rest }
  | [] =>
    match s.eng.phase with
    | .run => microStep s
    | .idle => .next s

/-- The host issues the command word `w` next (spec/opcode_table.json gives words to the CMD rows alone): the write to
CMD is put before every other input, and the engine is idle, so that the next step serves it. -/
def State.withFetchWord (s : State) (nbits w : Nat) : State :=
  { s with
    pending := .access (cmdWrite (BitVec.ofNat 32 (w % 2 ^ nbits))) :: s.pending
    eng := { s.eng with phase := .idle } }

end Sys2Proof.Machine
end

