-- ==== Sys2Proof/Machine/Cipher.lean ====
section
/-!
DEFINITION. The cipher as the spec's closed forms give it, with no scheduler and no sequencer: the subkeys of
spec/42_key_scheduler.md R185 and the compositions of rounds of spec/41_round_function.md R166. The machine does not call
it; statements hold the machine against it.
-/

namespace Sys2Proof.Machine

/-- `SK[j] = (rotl_28(L0, (j+1)*ROT) || rotl_28(R0, (j+1)*ROT))[55:24]` (42_key_scheduler.md R185). -/
def cipherSubkey (b : Build) (k : Key) (j : Nat) : Word :=
  firstBits (joinKey (rotl28 (keyLeft k) ((j + 1) * b.rot)) (rotl28 (keyRight k) ((j + 1) * b.rot)))

/-- The subkeys `k_1 .. k_NR` in generation order (41_round_function.md R166). -/
def cipherSubkeys (b : Build) (k : Key) : List Word := (List.range b.nr).map (cipherSubkey b k)

/-- Rounds composed right to left: the first subkey of the list is applied first (41_round_function.md R166). -/
def cipherRounds (b : Build) (ks : List Word) (blk : Block) : Block := ks.foldl (roundFn b) blk

/-- `E`, the ENC transform of each SWAP_MODE (41_round_function.md R166). -/
def cipherEnc (b : Build) (k : Key) (blk : Block) : Block :=
  match b.swapMode with
  | .decBracket => cipherRounds b (cipherSubkeys b k) blk
  | .finalSwap => swap64 (cipherRounds b (cipherSubkeys b k) blk)

/-- `D`, the DEC transform of each SWAP_MODE (41_round_function.md R166). -/
def cipherDec (b : Build) (k : Key) (blk : Block) : Block :=
  match b.swapMode with
  | .decBracket => swap64 (cipherRounds b (cipherSubkeys b k).reverse (swap64 blk))
  | .finalSwap => swap64 (cipherRounds b (cipherSubkeys b k).reverse blk)

/-- `E` or `D`, by the command's direction. -/
def cipherIn (d : Dir) (b : Build) (k : Key) (blk : Block) : Block :=
  match d with
  | .enc => cipherEnc b k blk
  | .dec => cipherDec b k blk

/-- The scheduler after all its subkeys are taken in direction `d` (42_key_scheduler.md R185, R196). -/
def cipherSpent (d : Dir) (b : Build) (k : Key) : Scheduler where
  l := rotl28 (keyLeft k) (b.nr * b.rot)
  r := rotl28 (keyRight k) (b.nr * b.rot)
  sk := cipherSubkeys b k
  state := .exhausted
  dir :=
    match d with
    | .enc => .enc
    | .dec => .dec
  taken := b.nr

end Sys2Proof.Machine
end

