-- ==== Sys2Proof/Machine/HostView.lean ====
section
/-!
DEFINITION. The host's byte-array forms of a block and of a key (spec/20_memory.md R78). They are conventions of the
host's conversion layer: no operation of the FCE uses them.
-/

namespace Sys2Proof.Machine

/-- Byte j of the block's 8-byte array, `BLK[63-8j : 56-8j]`, for `j <= 7` (R78). -/
def blockByte (b : Block) (j : Fin 8) : Byte := b.extractLsb' (56 - 8 * j.val) 8

/-- Byte j of the key's 7-byte array, `KEY[55-8j : 48-8j]`, for `j <= 6` (R78). -/
def keyByte (k : Key) (j : Fin 7) : Byte := k.extractLsb' (48 - 8 * j.val) 8

/-- The block's 8-byte array (R78). -/
def blockToBytes (b : Block) : Vector Byte 8 := Vector.ofFn (blockByte b)

/-- The key's 7-byte array (R78). -/
def keyToBytes (k : Key) : Vector Byte 7 := Vector.ofFn (keyByte k)

/-- The block of an 8-byte array, its first byte holding positions 0..7 (R78). -/
def blockOfBytes (v : Vector Byte 8) : Block :=
  v[0] ++ v[1] ++ v[2] ++ v[3] ++ v[4] ++ v[5] ++ v[6] ++ v[7]

/-- The key of a 7-byte array, its first byte holding positions 0..7 (R78). -/
def keyOfBytes (v : Vector Byte 7) : Key :=
  v[0] ++ v[1] ++ v[2] ++ v[3] ++ v[4] ++ v[5] ++ v[6]

end Sys2Proof.Machine
end

