-- ==== Sys2Proof/Machine/Platform.lean ====
section
/-!
DEFINITION. A platform with N_INST instances of the FCE, each with a window at a BASE of its own (spec/00_scope.md R14,
R15; spec/20_memory.md R70, R74; spec/60_exceptions.md R280). The host's accesses carry byte addresses here, and the
platform presents to an instance the accesses whose address lies in its window.
-/

namespace Sys2Proof.Machine

/-- A host access by byte address: `MemRead(addr, size)` or `MemWrite(addr, size, data)` (00_scope.md R20). -/
structure HostAccess where
  addr : Nat
  size : Nat
  dir : BusDir
  deriving DecidableEq, Repr

/-- What the outside gives the platform: an access, or the reset input of the instance at an index. -/
inductive HostInput where
  | access (a : HostAccess)
  | reset (n : Nat)
  deriving DecidableEq, Repr

/-- An instance and the BASE of its window (60_exceptions.md R280). -/
structure Fce where
  base : Nat
  state : State
  deriving DecidableEq, Repr

/-- The instances, and the inputs that have yet to reach them, in order (20_memory.md R80, R88). -/
structure Platform where
  fces : List Fce
  pending : List HostInput
  deriving DecidableEq, Repr

/-- The instance answers only for `0 <= addr - BASE <= 0x1F` (20_memory.md R74). -/
def inWindow (base addr : Nat) : Bool := decide (base ≤ addr) && decide (addr - base ≤ 0x1F)

/-- At least one instance (R15); every BASE a multiple of 32 (R14); no two windows the same (R280). -/
def Platform.wf (p : Platform) : Bool :=
  !p.fces.isEmpty && p.fces.all (fun u => u.base % 32 == 0) && decide (p.fces.map Fce.base).Nodup

/-- The access at the instance's port: `off = addr - BASE` (20_memory.md R74). -/
def HostAccess.at (a : HostAccess) (base : Nat) : Access :=
  ⟨BitVec.ofNat 5 (a.addr - base), a.size, a.dir⟩

/-- An input reaches an instance ahead of every other, and the instance takes a step. -/
def offer (i : Input) (s : State) : Result := step { s with pending := i :: s.pending }

/-- The input that reaches the instance at index `n`, if any: an access in its window, or its own reset. An access
outside the window "is not addressed to the FCE" (20_memory.md R74; log entry 12). -/
def inputFor (i : HostInput) (n : Nat) (u : Fce) : Option Input :=
  match i with
  | .access a => if inWindow u.base a.addr then some (.access (a.at u.base)) else none
  | .reset m => if m = n then some .reset else none

/-- One input served by every instance it reaches, from index `n` on; the others keep their state. -/
def serveAll (i : HostInput) : Nat → List Fce → Host.Outcome (List Fce) Fault Refusal
  | _, [] => .next []
  | n, u :: us =>
    match serveAll i (n + 1) us with
    | .fault r => .fault r
    | .refused r => .refused r
    | .next us' =>
      match inputFor i n u with
      | none => .next (u :: us')
      | some input =>
        match offer input u.state with
        | .fault r => .fault r
        | .refused r => .refused r
        | .next s => .next ({ u with state := s } :: us')

/-- The platform serves the next input. -/
def Platform.step (p : Platform) : Host.Outcome Platform Fault Refusal :=
  match p.pending with
  | [] => .next p
  | i :: rest =>
    match serveAll i 0 p.fces with
    | .fault r => .fault r
    | .refused r => .refused r
    | .next us => .next { fces := us, pending := rest }

end Sys2Proof.Machine
end

