-- ==== Sys2Proof/Machine/Run.lean ====
section
/-!
DEFINITION. Several steps in a row, stopping at the first stop (Host/Core.lean's run, at the model's own types).
-/

namespace Sys2Proof.Machine

/-- `n` steps from `s`. -/
def run (n : Nat) (s : State) : Host.Outcome State Fault Refusal := Host.Core.run Sys2Proof.core n s

end Sys2Proof.Machine
end

