-- ==== Sys2Proof/Machine/Script.lean ====
section
/-!
DEFINITION. The host-script language (spec/30_encoding.md R114), its pseudo-instructions (R115), the bus encoding of a
script (R116), and the run of one (spec/70_reset_and_hazards.md R300). It is a notation for what a host does, not
hardware: a script becomes the list of inputs of `State.pending`. What R114 leaves open of its text is log entry 15.
-/

namespace Sys2Proof.Machine

/-- The operations of the language, one constructor per production of `op` and row of R115's table. -/
inductive ScriptOp where
  | wr (r : Reg) (v : Word)
  | rd (r : Reg) (expected : Option Word)
  | nop
  | enc
  | dec
  | ldBlk (b : Block)
  | ldKey (k : Key)
  | ldLen (b k : Byte)
  | rdBlk (expected : Option Block)
  | rdKey (expected : Option Key)
  | rdErr (expected : Option (BitVec 4))
  deriving DecidableEq, Repr

/-- A value a script expects of a read, on the bits of a mask: "an assertion of the script" (R114). -/
structure Expected where
  mask : Word
  value : Word
  deriving DecidableEq, Repr

/-- A bus transaction of a script, with what the script expects of it. -/
structure Transaction where
  access : Access
  expected : Option Expected
  deriving DecidableEq, Repr

/-- `WR r, v`. -/
def scriptWr (r : Reg) (v : Word) : Transaction := ⟨regWrite r v, none⟩

/-- `RD r [=> v]`, expected on the whole word. -/
def scriptRd (r : Reg) (v : Option Word) : Transaction :=
  ⟨regRead r, v.map fun w => ⟨0xFFFFFFFF#32, w⟩⟩

/-- The transactions of an operation (R114) and the expansions of the pseudo-instructions (R115). -/
def ScriptOp.expand : ScriptOp → List Transaction
  | .wr r v => [scriptWr r v]
  | .rd r e => [scriptRd r e]
  | .nop => [scriptWr .cmd 0x0#32]
  | .enc => [scriptWr .cmd 0x1#32]
  | .dec => [scriptWr .cmd 0x2#32]
  | .ldBlk b => [scriptWr .blkHi (b.extractLsb' 32 32), scriptWr .blkLo (b.extractLsb' 0 32)]
  | .ldKey k => [scriptWr .keyHi ((k.extractLsb' 32 24).setWidth 32), scriptWr .keyLo (k.extractLsb' 0 32)]
  | .ldLen b k => [scriptWr .len (BitVec.ofNat 32 (k.toNat * 256 + b.toNat))]
  | .rdBlk e =>
    [scriptRd .blkHi (e.map fun v => v.extractLsb' 32 32), scriptRd .blkLo (e.map fun v => v.extractLsb' 0 32)]
  | .rdKey e =>
    [scriptRd .keyHi (e.map fun v => (v.extractLsb' 32 24).setWidth 32),
      scriptRd .keyLo (e.map fun v => v.extractLsb' 0 32)]
  | .rdErr e => [⟨regRead .status, e.map fun v => ⟨0xF#32, v.setWidth 32⟩⟩]

/-- The transactions of a script, in order. -/
def scriptTransactions (p : List ScriptOp) : List Transaction := (p.map ScriptOp.expand).flatten

/-- The encoding of a host program is its list of bus transactions (R116). -/
def encodeScript (p : List ScriptOp) : List Access := (scriptTransactions p).map Transaction.access

/-- The host is about to run a script: its accesses are the inputs the FCE receives next. -/
def State.withScript (p : List ScriptOp) (s : State) : State :=
  { s with pending := (encodeScript p).map Input.access ++ s.pending }

/-- The run of a script: one step per bus access; it ends with the last of them (70_reset_and_hazards.md R300). -/
def runScript (p : List ScriptOp) (s : State) : Result :=
  run (encodeScript p).length (s.withScript p)

/-- Whether an answer meets what the script expects. -/
def meets (e : Option Expected) (r : Reply) : Bool :=
  match e, r with
  | none, _ => true
  | some x, .data w => w &&& x.mask == x.value
  | some _, .done => false
  | some _, .busError => false

/-- The mismatches a model reports (R114): the places of the transactions whose answer is not the expected one. The FCE
ignores them. -/
def scriptMismatches : Nat → List Transaction → List Reply → List Nat
  | n, t :: ts, r :: rs =>
    if meets t.expected r then scriptMismatches (n + 1) ts rs else n :: scriptMismatches (n + 1) ts rs
  | _, [], _ => []
  | _, _ :: _, [] => []

/-- Blanks between tokens. -/
def isBlank (c : Char) : Bool := c == ' ' || c == '\t' || c == '\r'

/-- A finished word, if it is not empty, before the tokens that follow; its letters are held in reverse. -/
def pushToken (acc : List Char) (rest : List (List Char)) : List (List Char) :=
  match acc with
  | [] => rest
  | _ :: _ => acc.reverse :: rest

/-- The tokens of a line up to its comment (R114): words, `,` and `=>`. Mnemonics and register names are
case-insensitive, so letters are read as capitals. -/
def tokens : List Char → List Char → List (List Char)
  | acc, [] => pushToken acc []
  | acc, '=' :: '>' :: cs => pushToken acc (['=', '>'] :: tokens [] cs)
  | acc, c :: cs =>
    if c == ';' then pushToken acc []
    else if isBlank c then pushToken acc (tokens [] cs)
    else if c == ',' then pushToken acc ([','] :: tokens [] cs)
    else tokens (c.toUpper :: acc) cs

/-- The value of a digit, below 16; letters are capitals. -/
def digitVal (c : Char) : Option Nat :=
  if '0' ≤ c ∧ c ≤ '9' then some (c.toNat - '0'.toNat)
  else if 'A' ≤ c ∧ c ≤ 'F' then some (c.toNat - 'A'.toNat + 10)
  else none

/-- A digit string in a base, from the value of the digits before it. -/
def digitsVal (base : Nat) : Nat → List Char → Option Nat
  | acc, [] => some acc
  | acc, c :: cs =>
    match digitVal c with
    | some d => if d < base then digitsVal base (acc * base + d) cs else none
    | none => none

/-- `"0x" hex` of at most `n/4` digits, or a decimal; unsigned, below 2^n (R114, for `imm32`; the pseudo-instructions'
operands are read alike at their own widths). -/
def parseImm (n : Nat) (t : List Char) : Option (BitVec n) :=
  let v :=
    match t with
    | '0' :: 'X' :: hs => if hs.isEmpty ∨ n < 4 * hs.length then none else digitsVal 16 0 hs
    | [] => none
    | ds => digitsVal 10 0 ds
  match v with
  | some x => if x < 2 ^ n then some (BitVec.ofNat n x) else none
  | none => none

/-- `reg` (R114). -/
def parseReg (t : List Char) : Option Reg :=
  match t with
  | ['C', 'M', 'D'] => some .cmd
  | ['S', 'T', 'A', 'T', 'U', 'S'] => some .status
  | ['C', 'O', 'N', 'F', 'I', 'G'] => some .config
  | ['L', 'E', 'N'] => some .len
  | ['B', 'L', 'K', '_', 'H', 'I'] => some .blkHi
  | ['B', 'L', 'K', '_', 'L', 'O'] => some .blkLo
  | ['K', 'E', 'Y', '_', 'H', 'I'] => some .keyHi
  | ['K', 'E', 'Y', '_', 'L', 'O'] => some .keyLo
  | _ => none

/-- `["=>" imm]` (R114, R115): nothing, or an expected value. -/
def parseExpected (n : Nat) (ts : List (List Char)) : Option (Option (BitVec n)) :=
  match ts with
  | [] => some none
  | [['=', '>'], t] => (parseImm n t).map some
  | _ => none

/-- `op`, from its tokens (R114, R115). -/
def parseOp (ts : List (List Char)) : Option ScriptOp :=
  match ts with
  | [['W', 'R'], r, [','], v] =>
    match parseReg r, parseImm 32 v with
    | some r, some v => some (.wr r v)
    | _, _ => none
  | ['R', 'D'] :: r :: e =>
    match parseReg r, parseExpected 32 e with
    | some r, some e => some (.rd r e)
    | _, _ => none
  | [['N', 'O', 'P']] => some .nop
  | [['E', 'N', 'C']] => some .enc
  | [['D', 'E', 'C']] => some .dec
  | [['L', 'D', 'B', 'L', 'K'], v] => (parseImm 64 v).map .ldBlk
  | [['L', 'D', 'K', 'E', 'Y'], v] => (parseImm 56 v).map .ldKey
  | [['L', 'D', 'L', 'E', 'N'], b, [','], k] =>
    match parseImm 8 b, parseImm 8 k with
    | some b, some k => some (.ldLen b k)
    | _, _ => none
  | ['R', 'D', 'B', 'L', 'K'] :: e => (parseExpected 64 e).map .rdBlk
  | ['R', 'D', 'K', 'E', 'Y'] :: e => (parseExpected 56 e).map .rdKey
  | ['R', 'D', 'E', 'R', 'R'] :: e => (parseExpected 4 e).map .rdErr
  | _ => none

/-- `line := [op] [";" comment]` (R114): nothing where the line is not of the language, and no operation where it is
empty or a comment. -/
def parseLine (cs : List Char) : Option (Option ScriptOp) :=
  match tokens [] cs with
  | [] => some none
  | t :: ts => (parseOp (t :: ts)).map some

end Sys2Proof.Machine
end

