-- ==== Sys2Proof/Safety.lean ====
section
/-!
DEFINITION. What claims are stated in terms of: the invariants of the scheduler and of an instance as the host finds it
(spec/10_state.md R45, R46; spec/42_key_scheduler.md R196; spec/60_exceptions.md R267), what the host can observe
(spec/10_state.md R48, R49), and the premise of a claim about a run (spec/70_reset_and_hazards.md R300).
-/

namespace Sys2Proof

/-- The operations that may change BLK: ENC, DEC and the writes of its words (10_state.md R31). -/
def Instr.mayWriteBlk : Instr → Bool
  | .enc | .dec | .wrBlkHi _ | .wrBlkLo _ => true
  | .nop | .illegal _ | .rdCmd | .rdStatus | .wrStatus _ | .rdConfig | .wrConfig _ | .rdLen | .wrLen _ | .rdBlkHi
  | .rdBlkLo | .rdKeyHi | .wrKeyHi _ | .rdKeyLo | .wrKeyLo _ | .busError _ _ _ => false

/-- The operations that may change KEY: the writes of its words. "Commands read KEY and never write it" (10_state.md
R32). -/
def Instr.mayWriteKey : Instr → Bool
  | .wrKeyHi _ | .wrKeyLo _ => true
  | .nop | .enc | .dec | .illegal _ | .rdCmd | .rdStatus | .wrStatus _ | .rdConfig | .wrConfig _ | .rdLen | .wrLen _
  | .rdBlkHi | .wrBlkHi _ | .rdBlkLo | .wrBlkLo _ | .rdKeyHi | .rdKeyLo | .busError _ _ _ => false

/-- The operation that may change LEN (10_state.md R33). -/
def Instr.mayWriteLen : Instr → Bool
  | .wrLen _ => true
  | .nop | .enc | .dec | .illegal _ | .rdCmd | .rdStatus | .wrStatus _ | .rdConfig | .wrConfig _ | .rdLen | .rdBlkHi
  | .wrBlkHi _ | .rdBlkLo | .wrBlkLo _ | .rdKeyHi | .wrKeyHi _ | .rdKeyLo | .wrKeyLo _ | .busError _ _ _ => false

/-- The operations that may change the scheduler and the engine: ENC and DEC (42_key_scheduler.md R181). -/
def Instr.mayRun : Instr → Bool
  | .enc | .dec => true
  | .nop | .illegal _ | .rdCmd | .rdStatus | .wrStatus _ | .rdConfig | .wrConfig _ | .rdLen | .wrLen _ | .rdBlkHi
  | .wrBlkHi _ | .rdBlkLo | .wrBlkLo _ | .rdKeyHi | .wrKeyHi _ | .rdKeyLo | .wrKeyLo _ | .busError _ _ _ => false

/-- The operations that may change ERR: ENC, DEC and an illegal command (60_exceptions.md R265). -/
def Instr.mayWriteErr : Instr → Bool
  | .enc | .dec | .illegal _ => true
  | .nop | .rdCmd | .rdStatus | .wrStatus _ | .rdConfig | .wrConfig _ | .rdLen | .wrLen _ | .rdBlkHi | .wrBlkHi _
  | .rdBlkLo | .wrBlkLo _ | .rdKeyHi | .wrKeyHi _ | .rdKeyLo | .wrKeyLo _ | .busError _ _ _ => false

/-- The reads of a register (43_engine_commands.md R239 to R244). -/
def Instr.isRead : Instr → Bool
  | .rdCmd | .rdStatus | .rdConfig | .rdLen | .rdBlkHi | .rdBlkLo | .rdKeyHi | .rdKeyLo => true
  | .nop | .enc | .dec | .illegal _ | .wrStatus _ | .wrConfig _ | .wrLen _ | .wrBlkHi _ | .wrBlkLo _ | .wrKeyHi _
  | .wrKeyLo _ | .busError _ _ _ => false

/-- The writes of a register other than CMD (43_engine_commands.md R233 to R238). -/
def Instr.isRegWrite : Instr → Bool
  | .wrStatus _ | .wrConfig _ | .wrLen _ | .wrBlkHi _ | .wrBlkLo _ | .wrKeyHi _ | .wrKeyLo _ => true
  | .nop | .enc | .dec | .illegal _ | .rdCmd | .rdStatus | .rdConfig | .rdLen | .rdBlkHi | .rdBlkLo | .rdKeyHi
  | .rdKeyLo | .busError _ _ _ => false

end Sys2Proof

namespace Sys2Proof.Machine

/-- The scheduler's invariants, for a build with `nr` rounds (10_state.md R41, R44, R45). -/
structure SchedInv (nr : Nat) (ks : Scheduler) : Prop where
  /-- The subkey store has the entries 0..NR-1 (R41). -/
  store : ks.sk.length = nr
  /-- `0 <= KS.taken <= NR` (R44). -/
  bound : ks.taken ≤ nr
  /-- UNINIT implies direction NONE and nothing taken (R45). -/
  uninit : ks.state = .uninit → ks.dir = .none ∧ ks.taken = 0
  /-- SCHED implies `KS.taken < NR`, and direction NONE exactly when nothing is taken (R45). -/
  sched : ks.state = .sched → ks.taken < nr ∧ (ks.dir = .none ↔ ks.taken = 0)
  /-- EXHAUSTED implies `KS.taken = NR` and a direction (R45). -/
  exhausted : ks.state = .exhausted → ks.taken = nr ∧ (ks.dir = .enc ∨ ks.dir = .dec)

/-- The codes a host can find in ERR: the scheduler's three can never be observed there (60_exceptions.md R267). -/
def ErrCode.hostVisible : ErrCode → Bool
  | .none => true
  | .illegalCmd => true
  | .blockLen => true
  | .keyLen => true
  | .ksUninit => false
  | .ksMixed => false
  | .ksExhausted => false

/-- An instance as the host finds it between two accesses. -/
structure State.Inv (s : State) : Prop where
  /-- A legal build (00_scope.md R9, R10, R12). -/
  build : s.build.wf = true
  /-- The scheduler's invariants (10_state.md R45). -/
  ks : SchedInv s.build.nr s.ks
  /-- KS_STATE = 1 (SCHED) "is never visible to the host" (42_key_scheduler.md R196). -/
  notSched : s.ks.state ≠ .sched
  /-- No scheduler error in ERR (60_exceptions.md R267). -/
  err : s.err.hostVisible = true
  /-- "ENG.phase is RUN only inside an ENC or DEC command" (10_state.md R46). -/
  idle : s.eng.phase = .idle
  /-- `0 <= ENG.round <= NR` (10_state.md R46). -/
  round : s.eng.round ≤ s.build.nr

/-- Two instances that agree on everything but the state R48 marks "unobservable": KS.L, KS.R, KS.SK, ENG.dir, ENG.round
and ENG.W (10_state.md R48, R49). -/
structure ObsEq (s t : State) : Prop where
  build : s.build = t.build
  blk : s.blk = t.blk
  key : s.key = t.key
  len : s.len = t.len
  err : s.err = t.err
  ksState : s.ks.state = t.ks.state
  ksDir : s.ks.dir = t.ks.dir
  ksTaken : s.ks.taken = t.ks.taken
  phase : s.eng.phase = t.eng.phase
  pending : s.pending = t.pending
  replies : s.replies = t.replies

/-- The operation of a direction (30_encoding.md R102). -/
def Dir.command : Dir → Instr
  | .enc => .enc
  | .dec => .dec

/-- LEN holds the legal lengths, 64 and 56 (10_state.md R33). -/
def State.lenLegal (s : State) : Bool := s.len.blkBits == 64#8 && s.len.keyBits == 56#8

/-- Whether a step refuses an input: a bus access that the FCE does not accept (20_memory.md R73). -/
def Input.accepted : Input → Bool
  | .access a => Sys2Proof.accepted a.off a.size
  | .reset => true

/-- The next input, if there is one, is not a refused one. -/
def State.nextAccepted (s : State) : Bool :=
  match s.pending with
  | [] => true
  | i :: _ => i.accepted

/-- The premise of a claim about a run, "no access raises BusError" (70_reset_and_hazards.md R300): no answer so far is
one. A run from reset has it, because a step refuses the accesses that would get one (20_memory.md R73). -/
def State.noBusError (s : State) : Bool := !s.replies.contains .busError

end Sys2Proof.Machine
end

