-- ==== Sys2Proof/Certificates/Slice0/Obligations.lean ====
section
/-!
DEFINITION. The statements for the provers, in the order of spec/: reset, encoding, the step, commands, the key schedule,
the primitives, the register accesses, frames, and the platform. Each docstring names the rule it formalises, or the
sections it is derived from. `replies` and `pending` are the model's own fields (log entry 5): where a statement says
that an answer is appended to `replies`, the rule says that the access completes.
-/

open Sys2Proof Sys2Proof.Machine

/- ## Reset -/

/-- 70_reset_and_hazards.md R290 and R291: from every state, in either phase of the engine, the reset input leaves the
reset state of the same build; the reset state has the values of 10_state.md R48, and its host-visible words are those of
R290's table. (That a write under way is never answered, and that inputs and answers are kept, is log entry 7.) -/
def Obligations.ResetInputGivesResetState : Prop :=
  (∀ (s : State) (rest : List Input), s.pending = .reset :: rest →
    step s = .next { State.resetOf s.build with pending := rest, replies := s.replies }) ∧
  ∀ b : Build,
    (State.resetOf b).build = b ∧
    (State.resetOf b).blk = 0#64 ∧ (State.resetOf b).key = 0#56 ∧
    (State.resetOf b).len.blkBits = 64#8 ∧ (State.resetOf b).len.keyBits = 56#8 ∧
    (State.resetOf b).err = .none ∧
    (State.resetOf b).ks.state = .uninit ∧ (State.resetOf b).ks.dir = .none ∧ (State.resetOf b).ks.taken = 0 ∧
    (State.resetOf b).ks.l = 0#28 ∧ (State.resetOf b).ks.r = 0#28 ∧
    (State.resetOf b).ks.sk.length = b.nr ∧ (∀ k ∈ (State.resetOf b).ks.sk, k = 0#32) ∧
    (State.resetOf b).eng.phase = .idle ∧ (State.resetOf b).eng.dir = .enc ∧
    (State.resetOf b).eng.round = 0 ∧ (State.resetOf b).eng.w = 0#64 ∧
    statusView (State.resetOf b) = 0x00000000#32 ∧ lenView (State.resetOf b) = 0x00003840#32 ∧
    blkHiView (State.resetOf b) = 0#32 ∧ blkLoView (State.resetOf b) = 0#32 ∧
    keyHiView (State.resetOf b) = 0#32 ∧ keyLoView (State.resetOf b) = 0#32 ∧
    exec .rdCmd (State.resetOf b) = .next { State.resetOf b with replies := [.data 0x00000000#32] } ∧
    (∀ s : State, s.build = b → configView (State.resetOf b) = configView s) ∧
    (b.nr = 10 → b.rot = 1 → b.swapMode = .decBracket → configView (State.resetOf b) = 0x0000010A#32)

/-- 00_scope.md R9, R10, R13 and 30_encoding.md R108: `State.reset` is the reset state of the default build, whose CONFIG
word is 0x0000010A whatever the open tables are. -/
def Obligations.DefaultBuildAtReset : Prop :=
  State.reset.build.nr = 10 ∧ State.reset.build.rot = 1 ∧ State.reset.build.swapMode = .decBracket ∧
  State.reset = State.resetOf State.reset.build ∧ configView State.reset = 0x0000010A#32

/-- 10_state.md R47 (and R35): no command, host access or reset changes the constant tables and parameters. -/
def Obligations.BuildNeverChanges : Prop :=
  ∀ s t : State, step s = .next t → t.build = s.build

/- ## Encoding -/

/-- 30_encoding.md R113, R116: decoding the bus transaction of a well-formed operation gives the operation back, with
every operand. -/
def Obligations.DecodeOfEncode : Prop :=
  ∀ i : Instr, i.wf = true → decode (encode i) = i

/-- 30_encoding.md R113: every access in the window decodes to a well-formed operation, whose transaction it is. -/
def Obligations.EncodeOfDecode : Prop :=
  ∀ a : Access, (decode a).wf = true ∧ encode (decode a) = a

/-- 30_encoding.md R103, R112: the legal command words are exactly 0, 1 and 2; every other word, reserved operation
codes and set reserved bits alike, is ILLEGAL and reports E_ILLEGAL_CMD. -/
def Obligations.LegalCommandWords : Prop :=
  ∀ w : Word,
    (decode (cmdWrite w) = .nop ↔ w = 0x00000000#32) ∧
    (decode (cmdWrite w) = .enc ↔ w = 0x00000001#32) ∧
    (decode (cmdWrite w) = .dec ↔ w = 0x00000002#32) ∧
    (decode (cmdWrite w) = .illegal w ↔ w ≠ 0x00000000#32 ∧ w ≠ 0x00000001#32 ∧ w ≠ 0x00000002#32) ∧
    (w.extractLsb' 4 28 ≠ 0#28 → decode (cmdWrite w) = .illegal w) ∧
    (3 ≤ (w.extractLsb' 0 4).toNat → decode (cmdWrite w) = .illegal w) ∧
    ∀ s : State, w ≠ 0x00000000#32 → w ≠ 0x00000001#32 → w ≠ 0x00000002#32 →
      ∃ t, exec (decode (cmdWrite w)) s = .next t ∧ t.err = .illegalCmd

/-- Sanity: transactions written out from 30_encoding.md R113 and the examples of R229 decode to their operations. -/
def Obligations.SampleTransactionsDecode : Prop :=
  decode ⟨0x00#5, 4, .write 0x00000001#32⟩ = .enc ∧
  decode ⟨0x00#5, 4, .write 0x00000011#32⟩ = .illegal 0x00000011#32 ∧
  decode ⟨0x04#5, 4, .read⟩ = .rdStatus ∧
  decode ⟨0x18#5, 4, .write 0x00012345#32⟩ = .wrKeyHi 0x00012345#32 ∧
  decode ⟨0x02#5, 4, .read⟩ = .busError 0x02#5 4 .read ∧
  decode ⟨0x10#5, 2, .read⟩ = .busError 0x10#5 2 .read

/-- 30_encoding.md R114 to R116: the expansions of the six pseudo-instructions with what each read expects (of RDERR, bits
[3:0] only), and the bus encoding on the rule's own examples. The last two clauses, on `parseLine`, are the model's choice
(log entry 15): R114 leaves open where blanks may stand, and how RDERR's operand is written, here a decimal at 4 bits. -/
def Obligations.ScriptEncoding : Prop :=
  encodeScript [.nop] = [⟨0x00#5, 4, .write 0x00000000#32⟩] ∧
  encodeScript [.enc] = [⟨0x00#5, 4, .write 0x00000001#32⟩] ∧
  encodeScript [.dec] = [⟨0x00#5, 4, .write 0x00000002#32⟩] ∧
  encodeScript [.ldBlk 0x0123456789ABCDEF#64] =
    [⟨0x10#5, 4, .write 0x01234567#32⟩, ⟨0x14#5, 4, .write 0x89ABCDEF#32⟩] ∧
  encodeScript [.ldKey 0x0123456789ABCD#56] =
    [⟨0x18#5, 4, .write 0x00012345#32⟩, ⟨0x1C#5, 4, .write 0x6789ABCD#32⟩] ∧
  (∀ b : Block, scriptTransactions [.ldBlk b] =
    [⟨⟨0x10#5, 4, .write (b.extractLsb' 32 32)⟩, none⟩, ⟨⟨0x14#5, 4, .write (b.extractLsb' 0 32)⟩, none⟩]) ∧
  (∀ k : Key, scriptTransactions [.ldKey k] =
    [⟨⟨0x18#5, 4, .write ((k.extractLsb' 32 24).setWidth 32)⟩, none⟩,
      ⟨⟨0x1C#5, 4, .write (k.extractLsb' 0 32)⟩, none⟩]) ∧
  (∀ b k : Byte, scriptTransactions [.ldLen b k] = [⟨⟨0x0C#5, 4, .write ((k ++ b).setWidth 32)⟩, none⟩]) ∧
  (∀ e : Option Block, scriptTransactions [.rdBlk e] =
    [⟨⟨0x10#5, 4, .read⟩, e.map fun v => ⟨0xFFFFFFFF#32, v.extractLsb' 32 32⟩⟩,
      ⟨⟨0x14#5, 4, .read⟩, e.map fun v => ⟨0xFFFFFFFF#32, v.extractLsb' 0 32⟩⟩]) ∧
  (∀ e : Option Key, scriptTransactions [.rdKey e] =
    [⟨⟨0x18#5, 4, .read⟩, e.map fun v => ⟨0xFFFFFFFF#32, (v.extractLsb' 32 24).setWidth 32⟩⟩,
      ⟨⟨0x1C#5, 4, .read⟩, e.map fun v => ⟨0xFFFFFFFF#32, v.extractLsb' 0 32⟩⟩]) ∧
  (∀ e : Option (BitVec 4), scriptTransactions [.rdErr e] =
    [⟨⟨0x04#5, 4, .read⟩, e.map fun c => ⟨0x0000000F#32, c.setWidth 32⟩⟩]) ∧
  (∀ (c : BitVec 4) (w : Word),
    meets (some ⟨0x0000000F#32, c.setWidth 32⟩) (.data w) = true ↔ w.extractLsb' 0 4 = c) ∧
  (∀ v w : Word, meets (some ⟨0xFFFFFFFF#32, v⟩) (.data w) = true ↔ w = v) ∧
  parseLine ['w', 'r', ' ', 'L', 'e', 'n', ',', ' ', '0', 'x', '3', '8', '4', '0', ' ', ';', 'x'] =
    some (some (.wr .len 0x00003840#32)) ∧
  parseLine ['R', 'D', 'E', 'R', 'R', ' ', '=', '>', ' ', '3'] = some (some (.rdErr (some 3#4)))

/- ## The step -/

/-- 20_memory.md R72, R73, R80, R82: an idle FCE serves the next access it receives, and that is the operation the access
decodes to; an access that is not a well-formed one is refused. The shape of a step, and the last clause, on
`withFetchWord`, which puts one CMD write before every other input and sets the phase to IDLE, are the model's own (log
entry 6; the refusal is log entry 1). -/
def Obligations.StepRunsDecodedAccess : Prop :=
  (∀ (s : State) (a : Access) (rest : List Input), s.pending = .access a :: rest → s.eng.phase = .idle →
    (accepted a.off a.size = true → step s = exec (decode a) { s with pending := rest }) ∧
    (accepted a.off a.size = false → step s = .refused .busErrorAccess)) ∧
  ∀ (s : State) (w : Nat), w < 2 ^ 32 →
    step (s.withFetchWord 32 w) =
      exec (decode (cmdWrite (BitVec.ofNat 32 w))) { s with eng := { s.eng with phase := .idle } }

/-- 60_exceptions.md R277 and 20_memory.md R80: with nothing to serve an idle FCE stays as it is, and while a command runs
no access is served. That such a step answers the same state, and that a step from phase RUN is one micro-step of R224
where R80's step is the whole command, are the model's own (log entry 6). -/
def Obligations.IdleOrBusyStep : Prop :=
  (∀ s : State, s.pending = [] → s.eng.phase = .idle → step s = .next s) ∧
  ∀ s : State, s.pending.head? ≠ some .reset → s.eng.phase = .run → step s = microStep s

/-- 60_exceptions.md R267: the scheduler's errors can never be observed in ERR. From every state with an idle engine a
step that does not refuse its access (R73; log entry 1) answers a next state, leaves the engine idle, and puts none of
the three codes in ERR; every instance starts so. So no retrieval of a command fails, and no step is a fault. (That a step
takes one input, and goes on when there is none, is log entry 6.) -/
def Obligations.SchedulerErrorsUnreachable : Prop :=
  (∀ s : State, s.eng.phase = .idle → s.nextAccepted = true →
    ∃ t, step s = .next t ∧ t.eng.phase = .idle ∧ (s.err.hostVisible = true → t.err.hostVisible = true)) ∧
  (∀ s : State, s.eng.phase = .idle → s.nextAccepted = false → step s = .refused .busErrorAccess) ∧
  ∀ b : Build, (State.resetOf b).eng.phase = .idle ∧ (State.resetOf b).err.hostVisible = true

/-- 10_state.md R45, R46, 42_key_scheduler.md R196, 60_exceptions.md R267: every step keeps the invariant of an
instance as the host finds it. -/
def Obligations.StepKeepsInvariant : Prop :=
  ∀ s t : State, s.Inv → step s = .next t → t.Inv

/-- The invariant holds right after reset, for every legal build and for the default one. -/
def Obligations.ResetMeetsInvariant : Prop :=
  (∀ b : Build, b.wf = true → (State.resetOf b).Inv) ∧ State.reset.Inv

/-- 10_state.md R45: the scheduler's invariants hold after reset and after every operation of the scheduler, the
retrievals inside a command included. -/
def Obligations.SchedulerInvariantKept : Prop :=
  ∀ b : Build, 1 ≤ b.nr →
    SchedInv b.nr (Scheduler.reset b.nr) ∧
    (∀ k kbits ks, ksLoad b k kbits = .ok ks → SchedInv b.nr ks) ∧
    ∀ d ks k ks', SchedInv b.nr ks → ksNextIn b.nr d ks = .ok k ks' → SchedInv b.nr ks'

/-- 10_state.md R48, R49: the state marked "unobservable" never shows. Two idle instances that agree on everything else
stay so, whatever accesses and resets they are given: they give the same answers at every step and end alike, or both
runs are refused at a BusError access (R73; log entry 1). That a run goes on past a reset is log entry 7, and the answers
are the model's own field (log entry 5). -/
def Obligations.UnobservableStateNeverShows : Prop :=
  ∀ (n : Nat) (s t : State), ObsEq s t → s.eng.phase = .idle →
    (∃ s' t', run n s = .next s' ∧ run n t = .next t' ∧ ObsEq s' t') ∨
    (run n s = .refused .busErrorAccess ∧ run n t = .refused .busErrorAccess)

/- ## Commands -/

/-- 43_engine_commands.md R221. -/
def Obligations.NopChangesNothing : Prop :=
  ∀ s : State, exec .nop s = .next { s with replies := s.replies ++ [.done] }

/-- 43_engine_commands.md R229: every other command word writes E_ILLEGAL_CMD, code 1, to ERR and nothing else, and the
bus write completes normally. -/
def Obligations.IllegalCommandWritesErrOnly : Prop :=
  (∀ (w : Word) (s : State), w ≠ 0#32 → w ≠ 1#32 → w ≠ 2#32 →
    exec (decode (cmdWrite w)) s = .next { s with err := .illegalCmd, replies := s.replies ++ [.done] }) ∧
  (∀ (w : Word) (s : State),
    exec (.illegal w) s = .next { s with err := .illegalCmd, replies := s.replies ++ [.done] }) ∧
  ErrCode.illegalCmd.code = 1#4

/-- 43_engine_commands.md R222, R227; 41_round_function.md R166: a legal ENC overwrites BLK with `E(BLK)`, the rounds
composed in generation order; ERR is E_NONE, the scheduler is EXHAUSTED for ENC with its subkeys in closed form, the
engine is idle after NR rounds, and nothing else changes. (That ENG.dir, ENG.round and ENG.W keep their last
values is log entry 10.) -/
def Obligations.EncryptionResult : Prop :=
  ∀ s : State, s.build.wf = true → s.lenLegal = true →
    exec .enc s = .next
      { s with
        blk := cipherEnc s.build s.key s.blk
        err := .none
        ks := cipherSpent .enc s.build s.key
        eng := { phase := .idle, dir := .enc, round := s.build.nr, w := cipherEnc s.build s.key s.blk }
        replies := s.replies ++ [.done] }

/-- 43_engine_commands.md R223, R227; 41_round_function.md R166: a legal DEC overwrites BLK with `D(BLK)`, the rounds
composed in reverse order between the swaps of SWAP_MODE; ERR is E_NONE, the scheduler is EXHAUSTED for DEC, the engine
is idle after NR rounds, and nothing else changes. (That ENG.dir, ENG.round and ENG.W keep their last
values is log entry 10.) -/
def Obligations.DecryptionResult : Prop :=
  ∀ s : State, s.build.wf = true → s.lenLegal = true →
    exec .dec s = .next
      { s with
        blk := cipherDec s.build s.key s.blk
        err := .none
        ks := cipherSpent .dec s.build s.key
        eng := { phase := .idle, dir := .dec, round := s.build.nr, w := cipherDec s.build s.key s.blk }
        replies := s.replies ++ [.done] }

/-- 43_engine_commands.md R225 and 42_key_scheduler.md R182: the block length is checked first, then the key length; a
failing check writes ERR and nothing else, and the scheduler keeps its state. -/
def Obligations.LengthChecksWriteErrOnly : Prop :=
  ∀ (d : Dir) (s : State),
    (s.len.blkBits ≠ 64#8 →
      exec d.command s = .next { s with err := .blockLen, replies := s.replies ++ [.done] }) ∧
    (s.len.blkBits = 64#8 → s.len.keyBits ≠ 56#8 →
      exec d.command s = .next { s with err := .keyLen, replies := s.replies ++ [.done] }) ∧
    ∀ (b : Build) (k : Key) (kbits : Byte), kbits ≠ 56#8 → ksLoad b k kbits = .error .keyLen

/-- 60_exceptions.md R264 and 42_key_scheduler.md R190: a write to CMD reports the first check that fails, in the order
ILLEGAL, block length, key length; inside a retrieval the order is UNINIT, MIXED, EXHAUSTED. -/
def Obligations.FirstFailingCheckIsReported : Prop :=
  (∀ (w : Word) (s : State), ∃ t, exec (decode (cmdWrite w)) s = .next t ∧
    (w ≠ 0#32 ∧ w ≠ 1#32 ∧ w ≠ 2#32 → t.err = .illegalCmd) ∧
    (w = 0#32 → t.err = s.err) ∧
    (w = 1#32 ∨ w = 2#32 → s.len.blkBits ≠ 64#8 → t.err = .blockLen) ∧
    (w = 1#32 ∨ w = 2#32 → s.len.blkBits = 64#8 → s.len.keyBits ≠ 56#8 → t.err = .keyLen) ∧
    (w = 1#32 ∨ w = 2#32 → s.len.blkBits = 64#8 → s.len.keyBits = 56#8 → t.err = .none)) ∧
  ∀ (nr : Nat) (ks : Scheduler),
    (ks.state = .uninit → ksNextEnc nr ks = .raise .ksUninit ∧ ksNextDec nr ks = .raise .ksUninit) ∧
    (ks.state ≠ .uninit → ks.dir = .dec → ksNextEnc nr ks = .raise .ksMixed) ∧
    (ks.state ≠ .uninit → ks.dir = .enc → ksNextDec nr ks = .raise .ksMixed) ∧
    (ks.state ≠ .uninit → ks.dir ≠ .dec → ks.taken = nr → ksNextEnc nr ks = .raise .ksExhausted) ∧
    (ks.state ≠ .uninit → ks.dir ≠ .enc → ks.taken = nr → ksNextDec nr ks = .raise .ksExhausted)

/-- 43_engine_commands.md R230: with LEN legal, ENC then DEC with the same key gives the block back, and so does DEC then
ENC, for every table, NR, ROT and SWAP_MODE; the transforms `E` and `D` are bijections, inverse to each other. -/
def Obligations.RoundTripRestoresBlock : Prop :=
  (∀ s : State, s.lenLegal = true →
    (∃ t u, exec .enc s = .next t ∧ exec .dec t = .next u ∧ u.blk = s.blk) ∧
    ∃ t u, exec .dec s = .next t ∧ exec .enc t = .next u ∧ u.blk = s.blk) ∧
  ∀ (b : Build) (k : Key), Function.Bijective (cipherEnc b k) ∧ Function.Bijective (cipherDec b k) ∧
    ∀ blk, cipherDec b k (cipherEnc b k blk) = blk ∧ cipherEnc b k (cipherDec b k blk) = blk

/-- 43_engine_commands.md R231: ENC and DEC are functions of BLK, KEY and the build alone. -/
def Obligations.ResultDependsOnBlockAndKeyOnly : Prop :=
  ∀ (d : Dir) (s t : State), s.lenLegal = true → t.lenLegal = true →
    s.build = t.build → s.blk = t.blk → s.key = t.key →
    ∃ s' t', exec d.command s = .next s' ∧ exec d.command t = .next t' ∧ s'.blk = t'.blk

/-- 43_engine_commands.md R231: the key reaches the result only through the subkeys, so two keys with the same subkeys give
the same result, for every build. In particular: with NR = 10 and ROT = 1 the bits KEY[27] and KEY[13:0] do not matter;
with ROT = 0, and with ROT any multiple of 28, only KEY[55:24] does; with NR = 1 only KEY[55:28] and the four bits of the
right half that the one rotation brings to its top do, by R186, which are KEY[27:24] where ROT is 0 (R231's shorter clause
for NR = 1: log entry 14). -/
def Obligations.UnusedKeyBitsDoNotMatter : Prop :=
  ∀ (d : Dir) (s : State) (k : Key), s.lenLegal = true →
    (cipherSubkeys s.build k = cipherSubkeys s.build s.key ∨
      (s.build.nr = 10 ∧ s.build.rot = 1 ∧
        ∀ i, i < 56 → i ≠ 27 → 14 ≤ i → k.getLsbD i = s.key.getLsbD i) ∨
      (s.build.rot % 28 = 0 ∧ k.extractLsb' 24 32 = s.key.extractLsb' 24 32) ∨
      (s.build.nr = 1 ∧ k.extractLsb' 28 28 = s.key.extractLsb' 28 28 ∧
        (rotl28 (keyRight k) s.build.rot).extractLsb' 24 4 =
          (rotl28 (keyRight s.key) s.build.rot).extractLsb' 24 4)) →
    ∃ t t', exec d.command s = .next t ∧ exec d.command { s with key := k } = .next t' ∧ t'.blk = t.blk

/-- 42_key_scheduler.md R185 and R187, on the clause of 43_engine_commands.md R231 that with NR = 1 only KEY[55:24] reaches
the subkey: for a build of one round, by the rules of the schedule, the clause holds exactly where ROT is 0 modulo 28, and
what reaches the subkey for every ROT is KEY[55:28] and four bits of the right half, KEY[27:24] rotated (log entry 14). -/
def Obligations.OneRoundKeyUse : Prop :=
  ∀ b : Build, b.nr = 1 →
    ((∀ k k' : Key, k.extractLsb' 24 32 = k'.extractLsb' 24 32 → cipherSubkeys b k = cipherSubkeys b k') ↔
      b.rot % 28 = 0) ∧
    ∀ k k' : Key, cipherSubkeys b k = cipherSubkeys b k' ↔
      (∀ i, i < 28 → k.getLsbD (28 + i) = k'.getLsbD (28 + i)) ∧
      ∀ i, i < 4 → k.getLsbD ((24 + i + (28 - b.rot % 28)) % 28) = k'.getLsbD ((24 + i + (28 - b.rot % 28)) % 28)

/-- 43_engine_commands.md R224 and R226, 70_reset_and_hazards.md R299: the atomic command is NR round micro-steps of the
engine and its completion. Nothing but a reset interrupts them. (That a step from phase RUN is one micro-step is log entry
6.) -/
def Obligations.MicroStepsRefineCommand : Prop :=
  ∀ (d : Dir) (s s₀ : State), engBegin d s = .ok s₀ → s.pending.head? ≠ some .reset →
    run (s.build.nr + 1) s₀ = exec d.command s

/-- 70_reset_and_hazards.md R291: after any number of micro-steps of a command up to NR, BLK and ERR still hold what they
held before the command, and a reset abandons it: the reset state is left. (That the abandoned write is never answered is
log entry 7.) -/
def Obligations.ResetAbandonsRunningCommand : Prop :=
  ∀ (d : Dir) (s s₀ : State) (k : Nat), engBegin d s = .ok s₀ → k ≤ s.build.nr →
    ∃ s₁, engRounds k s₀ = .next s₁ ∧ s₁.eng.phase = .run ∧ s₁.eng.round = k ∧ s₁.blk = s.blk ∧ s₁.err = s.err ∧
      ∀ rest, step { s₁ with pending := .reset :: rest } =
        .next { State.resetOf s.build with pending := rest, replies := s.replies }

/-- 42_key_scheduler.md R196: what STATUS shows of the scheduler after reset, after a command that succeeds, and after one
that fails its checks; SCHED never shows. -/
def Obligations.SchedulerViewAfterCommands : Prop :=
  ∀ s : State, s.build.wf = true →
    ((State.resetOf s.build).ks.state.code = 0#2 ∧ (State.resetOf s.build).ks.dir.code = 0#2 ∧
      (State.resetOf s.build).ks.taken = 0) ∧
    (s.lenLegal = true → ∃ t, exec .enc s = .next t ∧
      t.ks.state.code = 2#2 ∧ t.ks.dir.code = 1#2 ∧ t.ks.taken = s.build.nr ∧
      statusView t = BitVec.ofNat 32 (256 * s.build.nr + 0x60)) ∧
    (s.lenLegal = true → ∃ t, exec .dec s = .next t ∧
      t.ks.state.code = 2#2 ∧ t.ks.dir.code = 2#2 ∧ t.ks.taken = s.build.nr ∧
      statusView t = BitVec.ofNat 32 (256 * s.build.nr + 0xA0)) ∧
    (∀ d : Dir, s.lenLegal = false → ∃ t, exec d.command s = .next t ∧ t.ks = s.ks) ∧
    ∀ (i : Instr) (t : State), s.ks.state.code ≠ 1#2 → exec i s = .next t → t.ks.state.code ≠ 1#2

/- ## The key schedule -/

/-- 42_key_scheduler.md R184, R185: the subkey store and the halves after a load, in closed form. -/
def Obligations.ScheduleClosedForm : Prop :=
  ∀ (b : Build) (k : Key), ∃ ks, ksLoad b k 56#8 = .ok ks ∧
    ks.sk.length = b.nr ∧
    (∀ j, j < b.nr → ks.sk[j]? = some (firstBits
      (joinKey (rotl28 (keyLeft k) ((j + 1) * b.rot)) (rotl28 (keyRight k) ((j + 1) * b.rot))))) ∧
    ks.l = rotl28 (keyLeft k) (b.nr * b.rot) ∧ ks.r = rotl28 (keyRight k) (b.nr * b.rot) ∧
    ks.state = .sched ∧ ks.dir = .none ∧ ks.taken = 0

/-- 42_key_scheduler.md R186, R187: each half rotates within itself, and a subkey is the rotated left half followed by
the top four bits of the rotated right half. -/
def Obligations.SubkeyOfRotatedHalves : Prop :=
  ∀ (rot : Nat) (l r : KeyHalf),
    (ksNext rot l r).1 = rotl28 l rot ∧ (ksNext rot l r).2.1 = rotl28 r rot ∧
    (ksNext rot l r).2.2 = rotl28 l rot ++ (rotl28 r rot).extractLsb' 24 4

/-- 00_scope.md R19: the rotation is `((x << (r mod 28)) | (x >> (28 - (r mod 28)))) mod 2^28`. -/
def Obligations.RotationIsShiftPair : Prop :=
  ∀ (x : KeyHalf) (r : Nat),
    (rotl28 x r).toNat = (x.toNat <<< (r % 28) ||| x.toNat >>> (28 - r % 28)) % 2 ^ 28 ∧
    (r % 28 = 0 → rotl28 x r = x)

/-- 42_key_scheduler.md R191: after one load, NR retrievals of either direction deliver the store, in generation order for
encryption and in reverse order for decryption. -/
def Obligations.ScheduleSymmetry : Prop :=
  ∀ (b : Build) (k : Key) (ks : Scheduler), ksLoad b k 56#8 = .ok ks →
    (∃ e, ksRetrieve b.nr .enc b.nr ks = some (ks.sk, e)) ∧
    ∃ e, ksRetrieve b.nr .dec b.nr ks = some (ks.sk.reverse, e)

/-- 42_key_scheduler.md R192: a load generates exactly NR subkeys; after NR deliveries the scheduler is EXHAUSTED, and
every further retrieval fails: E_KS_EXHAUSTED in the same direction, E_KS_MIXED in the other (R190). -/
def Obligations.ScheduleExhausts : Prop :=
  ∀ (b : Build) (k : Key) (ks : Scheduler) (d : Dir), 1 ≤ b.nr → ksLoad b k 56#8 = .ok ks →
    ks.sk.length = b.nr ∧
    ∃ out last, ksRetrieve b.nr d b.nr ks = some (out, last) ∧ out.length = b.nr ∧ last.state = .exhausted ∧
      ∀ d' : Dir, ksNextIn b.nr d' last = .raise (if d' = d then .ksExhausted else .ksMixed)

/-- 42_key_scheduler.md R195: the corner cases of the schedule. -/
def Obligations.ScheduleCornerCases : Prop :=
  ∀ (b : Build) (k : Key) (ks : Scheduler), ksLoad b k 56#8 = .ok ks →
    (∀ j, j < b.nr → (j + 1) * b.rot % 28 = 0 → ks.sk[j]? = some (k.extractLsb' 24 32)) ∧
    (k = BitVec.allOnes 56 → ∀ s ∈ ks.sk, s = 0xFFFFFFFF#32) ∧
    (k = 0#56 → ∀ s ∈ ks.sk, s = 0#32) ∧
    (k.extractLsb' 28 28 = k.extractLsb' 0 28 → ∀ j, j < b.nr → ks.sk[j]? =
      some (rotl28 (keyLeft k) ((j + 1) * b.rot) ++ (rotl28 (keyLeft k) ((j + 1) * b.rot)).extractLsb' 24 4)) ∧
    ∀ x : KeyHalf, rotl28 x 27 = x.rotateRight 1

/- ## Primitives and the round -/

/-- 40_primitives.md R133, R134: SUBST32 replaces each byte group by its table entry, in place, and each lane depends on
its own group alone. -/
def Obligations.SubstitutionActsOnLanes : Prop :=
  ∀ (b : Build) (x : Word) (lane : Fin 4),
    (subst32 b x).extractLsb' (8 * lane.val) 8 = b.sbox[(x.extractLsb' (8 * lane.val) 8).toNat]'(BitVec.isLt _)

/-- 40_primitives.md R136: PERM32 is a gather, in bit-index form too, with the rule's corner cases. -/
def Obligations.PermutationGathers : Prop :=
  ∀ (b : Build) (y : Word),
    (∀ i (h : i < 32), pos (perm32 b y) i = pos y (b.ptable[i] - 1)) ∧
    (ptableOk b.ptable = true → ∀ i (h : i < 32), (perm32 b y).getLsbD (31 - i) = y.getLsbD (32 - b.ptable[i])) ∧
    perm32 b 0#32 = 0#32 ∧
    (ptableOk b.ptable = true → perm32 b 0xFFFFFFFF#32 = 0xFFFFFFFF#32) ∧
    (ptableOk b.ptable = true →
      (List.range 32).countP (fun i => (perm32 b y).getLsbD i) = (List.range 32).countP (fun i => y.getLsbD i)) ∧
    (b.ptable = identityPtable → perm32 b y = y)

/-- 40_primitives.md R138: under the table's integrity condition PERM32 is a bijection, and its inverse takes input
position `PTABLE[i] - 1` from output position `i`. -/
def Obligations.PermutationBijective : Prop :=
  ∀ b : Build, ptableOk b.ptable = true →
    Function.Bijective (perm32 b) ∧
    ∀ y z : Word, perm32 b y = z → ∀ i (h : i < 32), pos y (b.ptable[i] - 1) = pos z i

/-- 41_round_function.md R161, R162, R164: the round in full, and its corner cases. -/
def Obligations.RoundFormula : Prop :=
  ∀ (b : Build) (blk : Block) (k : Word),
    roundFn b blk k =
      blk.extractLsb' 0 32 ++
        (blk.extractLsb' 32 32 ^^^ perm32 b (subst32 b (blk.extractLsb' 0 32 ^^^ k))) ∧
    (perm32 b (subst32 b (blk.extractLsb' 0 32 ^^^ k)) = 0#32 → roundFn b blk k = swap64 blk) ∧
    (roundFn b · k) ≠ id

/-- 41_round_function.md R165: the same round with the same subkey on the swapped halves undoes a round, for every table.
So every bit of the block reaches the output of a round (R161). -/
def Obligations.RoundInverse : Prop :=
  ∀ (b : Build) (k : Word),
    (∀ blk : Block, swap64 (roundFn b (swap64 (roundFn b blk k)) k) = blk) ∧ Function.Bijective (roundFn b · k)

/- ## Register accesses -/

/-- 43_engine_commands.md R239 to R244: each read completes with the word the rule gives, and changes nothing. -/
def Obligations.ReadsReturnRegisters : Prop :=
  ∀ s : State,
    exec .rdCmd s = .next { s with replies := s.replies ++ [.data 0#32] } ∧
    exec .rdStatus s = .next { s with
      replies := s.replies ++ [.data ((BitVec.ofNat 8 s.ks.taken ++ s.ks.dir.code ++ s.ks.state.code ++ s.err.code).setWidth 32)] } ∧
    exec .rdConfig s = .next { s with
      replies := s.replies ++ [.data ((swapModeBit s.build.swapMode ++ BitVec.ofNat 5 s.build.rot ++
        BitVec.ofNat 8 s.build.nr).setWidth 32)] } ∧
    exec .rdLen s = .next { s with replies := s.replies ++ [.data ((s.len.keyBits ++ s.len.blkBits).setWidth 32)] } ∧
    exec .rdBlkHi s = .next { s with replies := s.replies ++ [.data (s.blk.extractLsb' 32 32)] } ∧
    exec .rdBlkLo s = .next { s with replies := s.replies ++ [.data (s.blk.extractLsb' 0 32)] } ∧
    exec .rdKeyHi s = .next { s with replies := s.replies ++ [.data ((s.key.extractLsb' 32 24).setWidth 32)] } ∧
    exec .rdKeyLo s = .next { s with replies := s.replies ++ [.data (s.key.extractLsb' 0 32)] }

/-- 30_encoding.md R104, R105 and 60_exceptions.md R261: the fields of STATUS and their codes; the reserved bits read 0,
and a write is ignored. -/
def Obligations.StatusFields : Prop :=
  ∀ (s : State) (v : Word),
    (statusView s).extractLsb' 0 4 = s.err.code ∧
    (statusView s).extractLsb' 4 2 = s.ks.state.code ∧
    (statusView s).extractLsb' 6 2 = s.ks.dir.code ∧
    (s.ks.taken ≤ 255 → ((statusView s).extractLsb' 8 8).toNat = s.ks.taken) ∧
    (statusView s).extractLsb' 16 16 = 0#16 ∧
    statusView (State.resetOf s.build) = 0x00000000#32 ∧
    exec (.wrStatus v) s = .next { s with replies := s.replies ++ [.done] } ∧
    (KsState.uninit.code = 0#2 ∧ KsState.sched.code = 1#2 ∧ KsState.exhausted.code = 2#2) ∧
    (KsDir.none.code = 0#2 ∧ KsDir.enc.code = 1#2 ∧ KsDir.dec.code = 2#2) ∧
    (s.ks.state.code ≠ 3#2 ∧ s.ks.dir.code ≠ 3#2) ∧
    (ErrCode.none.code = 0x0#4 ∧ ErrCode.illegalCmd.code = 0x1#4 ∧ ErrCode.blockLen.code = 0x2#4 ∧
      ErrCode.keyLen.code = 0x3#4 ∧ ErrCode.ksUninit.code = 0x4#4 ∧ ErrCode.ksMixed.code = 0x5#4 ∧
      ErrCode.ksExhausted.code = 0x6#4 ∧ s.err.code.toNat < 7)

/-- 30_encoding.md R108: the fields of CONFIG for every legal build, the word of the default parameters, and that a write
is ignored. -/
def Obligations.ConfigFields : Prop :=
  ∀ (s : State) (v : Word), s.build.wf = true →
    ((configView s).extractLsb' 0 8).toNat = s.build.nr ∧
    ((configView s).extractLsb' 8 5).toNat = s.build.rot ∧
    ((configView s).extractLsb' 13 1 = 0#1 ↔ s.build.swapMode = .decBracket) ∧
    ((configView s).extractLsb' 13 1 = 1#1 ↔ s.build.swapMode = .finalSwap) ∧
    (configView s).extractLsb' 14 18 = 0#18 ∧
    (s.build.nr = 10 → s.build.rot = 1 → s.build.swapMode = .decBracket → configView s = 0x0000010A#32) ∧
    exec (.wrConfig v) s = .next { s with replies := s.replies ++ [.done] }

/-- 43_engine_commands.md R237 and 30_encoding.md R106: a write of LEN stores its two fields, whatever their values, and
nothing else; the reset word is 0x00003840. -/
def Obligations.LenWriteStoresFields : Prop :=
  ∀ (s : State) (v : Word),
    exec (.wrLen v) s = .next { s with
      len := ⟨v.extractLsb' 0 8, v.extractLsb' 8 8⟩, replies := s.replies ++ [.done] } ∧
    (lenView s).extractLsb' 0 8 = s.len.blkBits ∧ (lenView s).extractLsb' 8 8 = s.len.keyBits ∧
    (lenView s).extractLsb' 16 16 = 0#16 ∧ lenView (State.resetOf s.build) = 0x00003840#32

/-- 43_engine_commands.md R233, R234: a write of BLK_HI or BLK_LO replaces its half of BLK and nothing else. -/
def Obligations.BlockWritesReplaceHalves : Prop :=
  ∀ (s : State) (v : Word),
    (∃ t, exec (.wrBlkHi v) s = .next t ∧ t.blk.extractLsb' 32 32 = v ∧
      t.blk.extractLsb' 0 32 = s.blk.extractLsb' 0 32 ∧
      t = { s with blk := t.blk, replies := s.replies ++ [.done] }) ∧
    ∃ t, exec (.wrBlkLo v) s = .next t ∧ t.blk.extractLsb' 0 32 = v ∧
      t.blk.extractLsb' 32 32 = s.blk.extractLsb' 32 32 ∧
      t = { s with blk := t.blk, replies := s.replies ++ [.done] }

/-- 43_engine_commands.md R235, R236: a write of KEY_HI replaces KEY[55:32] by bits [23:0] of the word, a write of KEY_LO
replaces KEY[31:0], and nothing else changes. -/
def Obligations.KeyWritesReplaceParts : Prop :=
  ∀ (s : State) (v : Word),
    (∃ t, exec (.wrKeyHi v) s = .next t ∧ t.key.extractLsb' 32 24 = v.extractLsb' 0 24 ∧
      t.key.extractLsb' 0 32 = s.key.extractLsb' 0 32 ∧
      t = { s with key := t.key, replies := s.replies ++ [.done] }) ∧
    ∃ t, exec (.wrKeyLo v) s = .next t ∧ t.key.extractLsb' 0 32 = v ∧
      t.key.extractLsb' 32 24 = s.key.extractLsb' 32 24 ∧
      t = { s with key := t.key, replies := s.replies ++ [.done] }

/-- 43_engine_commands.md R238: a write to STATUS or CONFIG has no effect on any state, and is not an error. -/
def Obligations.ReadOnlyWritesIgnored : Prop :=
  ∀ (s : State) (v : Word),
    exec (.wrStatus v) s = .next { s with replies := s.replies ++ [.done] } ∧
    exec (.wrConfig v) s = .next { s with replies := s.replies ++ [.done] }

/-- 30_encoding.md R110: every reserved bit of a register reads 0 and ignores writes, unlike the reserved bits of a command
word, which make the command illegal. -/
def Obligations.ReservedBitsReadZeroIgnoreWrites : Prop :=
  ∀ (s : State) (v v' : Word),
    (statusView s).extractLsb' 16 16 = 0#16 ∧ (lenView s).extractLsb' 16 16 = 0#16 ∧
    (keyHiView s).extractLsb' 24 8 = 0#8 ∧ (configView s).extractLsb' 14 18 = 0#18 ∧
    (v.extractLsb' 0 16 = v'.extractLsb' 0 16 → exec (.wrLen v) s = exec (.wrLen v') s) ∧
    (v.extractLsb' 0 24 = v'.extractLsb' 0 24 → exec (.wrKeyHi v) s = exec (.wrKeyHi v') s) ∧
    exec (.wrStatus v) s = exec (.wrStatus v') s ∧ exec (.wrConfig v) s = exec (.wrConfig v') s ∧
    (v.extractLsb' 4 28 ≠ 0#28 → decode (cmdWrite v) = .illegal v)

/-- 20_memory.md R79, R82, R110: what a write of each read-write register stores, the next read of it returns. -/
def Obligations.WritesReadBack : Prop :=
  ∀ (s : State) (v : Word),
    (∃ t u, exec (.wrLen v) s = .next t ∧ exec .rdLen t = .next u ∧
      u.replies = s.replies ++ [.done, .data (v &&& 0x0000FFFF#32)]) ∧
    (∃ t u, exec (.wrBlkHi v) s = .next t ∧ exec .rdBlkHi t = .next u ∧ u.replies = s.replies ++ [.done, .data v]) ∧
    (∃ t u, exec (.wrBlkLo v) s = .next t ∧ exec .rdBlkLo t = .next u ∧ u.replies = s.replies ++ [.done, .data v]) ∧
    (∃ t u, exec (.wrKeyHi v) s = .next t ∧ exec .rdKeyHi t = .next u ∧
      u.replies = s.replies ++ [.done, .data (v &&& 0x00FFFFFF#32)]) ∧
    ∃ t u, exec (.wrKeyLo v) s = .next t ∧ exec .rdKeyLo t = .next u ∧ u.replies = s.replies ++ [.done, .data v]

/-- 20_memory.md R81 and 43_engine_commands.md R232: reads have no side effect, register writes are idempotent, and a CMD
write is not: two ENC writes encrypt BLK twice under the unchanged key. -/
def Obligations.AccessSideEffects : Prop :=
  (∀ (i : Instr) (s : State), i.isRead = true →
    ∃ w, exec i s = .next { s with replies := s.replies ++ [.data w] }) ∧
  (∀ (i : Instr) (s : State), i.isRegWrite = true →
    ∃ t, exec i s = .next t ∧ exec i t = .next { t with replies := t.replies ++ [.done] }) ∧
  ∀ s : State, s.build.wf = true → s.lenLegal = true →
    ∃ t u, exec .enc s = .next t ∧ exec .enc t = .next u ∧
      u.blk = cipherEnc s.build s.key (cipherEnc s.build s.key s.blk) ∧ u.key = s.key ∧ u.len = s.len

/-- 20_memory.md R73 and 60_exceptions.md R269: an access that is misaligned or not 32 bits wide is answered by a BusError
and changes nothing, ERR included. (That `exec` says so by a next state, and that it is `step` that refuses the access, is
log entry 1: see `RejectedAccessEndsTheRun`.) -/
def Obligations.BusErrorChangesNothing : Prop :=
  (∀ (a : Access) (s : State), a.size ≠ 4 ∨ a.off.toNat % 4 ≠ 0 →
    exec (decode a) s = .next { s with replies := s.replies ++ [.busError] }) ∧
  ∀ (off : BitVec 5) (size : Nat) (dir : BusDir) (s : State),
    exec (.busError off size dir) s = .next { s with replies := s.replies ++ [.busError] }

/-- 20_memory.md R73 and 70_reset_and_hazards.md R300: a run in which the host makes an access that is misaligned or not 32
bits wide is refused there, however many steps it is given, so that no claim about how such a host program ends can be
proved; and where a step answers a next state, no access of it raised a BusError. (Log entries 1 and 6.) -/
def Obligations.RejectedAccessEndsTheRun : Prop :=
  (∀ (good : List Access) (bad : Access) (rest : List Input) (s : State) (n : Nat),
    s.eng.phase = .idle → s.pending = good.map Input.access ++ .access bad :: rest →
    (∀ a ∈ good, a.size = 4 ∧ a.off.toNat % 4 = 0) → bad.size ≠ 4 ∨ bad.off.toNat % 4 ≠ 0 → good.length < n →
    run n s = .refused .busErrorAccess) ∧
  ∀ s t : State, s.noBusError = true → step s = .next t → t.noBusError = true

/-- 60_exceptions.md R265: ERR is written by every ENC and DEC, by an illegal command and by reset, and by nothing else;
reading it does not clear it. -/
def Obligations.ErrLifetime : Prop :=
  (∀ (i : Instr) (s t : State), i.mayWriteErr = false → exec i s = .next t → t.err = s.err) ∧
  (∀ (d : Dir) (s : State), ∃ t, exec d.command s = .next t ∧
    t.err = if s.lenLegal then .none else if s.len.blkBits = 64#8 then .keyLen else .blockLen) ∧
  (∀ (w : Word) (s : State), ∃ t, exec (.illegal w) s = .next t ∧ t.err = .illegalCmd) ∧
  ∀ (s : State) (rest : List Input), s.pending = .reset :: rest → ∃ t, step s = .next t ∧ t.err = .none

/-- Which operations may change which state (10_state.md R31 to R33, R40 to R46; 42_key_scheduler.md R181; 20_memory.md
R80): every other field of the state is as it was, and each access is answered exactly once. -/
def Obligations.OperationsKeepOtherState : Prop :=
  ∀ (i : Instr) (s t : State), exec i s = .next t →
    t.build = s.build ∧ t.pending = s.pending ∧
    (i.mayWriteBlk = false → t.blk = s.blk) ∧
    (i.mayWriteKey = false → t.key = s.key) ∧
    (i.mayWriteLen = false → t.len = s.len) ∧
    (i.mayWriteErr = false → t.err = s.err) ∧
    (i.mayRun = false → t.ks = s.ks ∧ t.eng = s.eng) ∧
    ∃ r, t.replies = s.replies ++ [r]

/- ## Platform and host views -/

/-- 60_exceptions.md R280 and 20_memory.md R74: an input changes the FCE it reaches, as that FCE's own step does, and no
other; an access outside a window does not reach the FCE. A platform of idle instances answers a next state, unless the
access is one that an instance it reaches refuses (R73; log entry 1): that it does so too for an access outside every
window, of which R74 says nothing, and where it has no input, is the model's own (log entries 12 and 6). -/
def Obligations.FcesAreIndependent : Prop :=
  (∀ p : Platform, (∀ u ∈ p.fces, u.state.eng.phase = .idle) →
    (∀ i rest, p.pending = i :: rest → ∀ (n : Nat) (u : Fce), p.fces[n]? = some u →
      ∀ input, inputFor i n u = some input → input.accepted = true) →
    ∃ q, p.step = .next q ∧ ∀ u ∈ q.fces, u.state.eng.phase = .idle) ∧
  ∀ (p q : Platform) (i : HostInput) (rest : List HostInput), p.pending = i :: rest → p.step = .next q →
    q.pending = rest ∧ q.fces.length = p.fces.length ∧
    ∀ (n : Nat) (u : Fce), p.fces[n]? = some u →
      (inputFor i n u = none → q.fces[n]? = some u) ∧
      ∀ input, inputFor i n u = some input →
        ∃ s, offer input u.state = .next s ∧ q.fces[n]? = some { u with state := s }

/-- 20_memory.md R70, R74 and 60_exceptions.md R280: on a well-formed platform an address lies in at most one window. -/
def Obligations.WindowsAreDisjoint : Prop :=
  ∀ (p : Platform) (addr m n : Nat) (u v : Fce), p.wf = true →
    p.fces[m]? = some u → p.fces[n]? = some v → inWindow u.base addr = true → inWindow v.base addr = true → m = n

/-- 20_memory.md R78: byte j of the host's arrays is `BLK[63-8j : 56-8j]` and `KEY[55-8j : 48-8j]`, and the arrays and the
values of BLK and KEY are the same data. -/
def Obligations.ByteArraysAgree : Prop :=
  (∀ (b : Block) (j : Nat) (h : j < 8), (blockToBytes b)[j] = b.extractLsb' (56 - 8 * j) 8) ∧
  (∀ (k : Key) (j : Nat) (h : j < 7), (keyToBytes k)[j] = k.extractLsb' (48 - 8 * j) 8) ∧
  (∀ b : Block, blockOfBytes (blockToBytes b) = b) ∧ (∀ v, blockToBytes (blockOfBytes v) = v) ∧
  (∀ k : Key, keyOfBytes (keyToBytes k) = k) ∧ (∀ v, keyToBytes (keyOfBytes v) = v)
end

