-- ==== Sys2Proof/Laws/State.lean ====
section
/-!
SUPPORT. What each update of the state does to each field: one lemma per field per update, so that no later proof unfolds
an update.
-/

namespace Sys2Proof.Machine

@[simp] theorem answer_build (r : Reply) (s : State) : (answer r s).build = s.build := rfl
@[simp] theorem answer_blk (r : Reply) (s : State) : (answer r s).blk = s.blk := rfl
@[simp] theorem answer_key (r : Reply) (s : State) : (answer r s).key = s.key := rfl
@[simp] theorem answer_len (r : Reply) (s : State) : (answer r s).len = s.len := rfl
@[simp] theorem answer_err (r : Reply) (s : State) : (answer r s).err = s.err := rfl
@[simp] theorem answer_ks (r : Reply) (s : State) : (answer r s).ks = s.ks := rfl
@[simp] theorem answer_eng (r : Reply) (s : State) : (answer r s).eng = s.eng := rfl
@[simp] theorem answer_pending (r : Reply) (s : State) : (answer r s).pending = s.pending := rfl
@[simp] theorem answer_replies (r : Reply) (s : State) : (answer r s).replies = s.replies ++ [r] := rfl

@[simp] theorem raiseErr_build (e : ErrCode) (s : State) : (raiseErr e s).build = s.build := rfl
@[simp] theorem raiseErr_blk (e : ErrCode) (s : State) : (raiseErr e s).blk = s.blk := rfl
@[simp] theorem raiseErr_key (e : ErrCode) (s : State) : (raiseErr e s).key = s.key := rfl
@[simp] theorem raiseErr_len (e : ErrCode) (s : State) : (raiseErr e s).len = s.len := rfl
@[simp] theorem raiseErr_err (e : ErrCode) (s : State) : (raiseErr e s).err = e := rfl
@[simp] theorem raiseErr_ks (e : ErrCode) (s : State) : (raiseErr e s).ks = s.ks := rfl
@[simp] theorem raiseErr_eng (e : ErrCode) (s : State) : (raiseErr e s).eng = s.eng := rfl
@[simp] theorem raiseErr_pending (e : ErrCode) (s : State) : (raiseErr e s).pending = s.pending := rfl
@[simp] theorem raiseErr_replies (e : ErrCode) (s : State) : (raiseErr e s).replies = s.replies := rfl

@[simp] theorem setBlkHi_build (v : Word) (s : State) : (setBlkHi v s).build = s.build := rfl
@[simp] theorem setBlkHi_blk (v : Word) (s : State) : (setBlkHi v s).blk = joinHalves v (rightHalf s.blk) := rfl
@[simp] theorem setBlkHi_key (v : Word) (s : State) : (setBlkHi v s).key = s.key := rfl
@[simp] theorem setBlkHi_len (v : Word) (s : State) : (setBlkHi v s).len = s.len := rfl
@[simp] theorem setBlkHi_err (v : Word) (s : State) : (setBlkHi v s).err = s.err := rfl
@[simp] theorem setBlkHi_ks (v : Word) (s : State) : (setBlkHi v s).ks = s.ks := rfl
@[simp] theorem setBlkHi_eng (v : Word) (s : State) : (setBlkHi v s).eng = s.eng := rfl
@[simp] theorem setBlkHi_pending (v : Word) (s : State) : (setBlkHi v s).pending = s.pending := rfl
@[simp] theorem setBlkHi_replies (v : Word) (s : State) : (setBlkHi v s).replies = s.replies := rfl

@[simp] theorem setBlkLo_build (v : Word) (s : State) : (setBlkLo v s).build = s.build := rfl
@[simp] theorem setBlkLo_blk (v : Word) (s : State) : (setBlkLo v s).blk = joinHalves (leftHalf s.blk) v := rfl
@[simp] theorem setBlkLo_key (v : Word) (s : State) : (setBlkLo v s).key = s.key := rfl
@[simp] theorem setBlkLo_len (v : Word) (s : State) : (setBlkLo v s).len = s.len := rfl
@[simp] theorem setBlkLo_err (v : Word) (s : State) : (setBlkLo v s).err = s.err := rfl
@[simp] theorem setBlkLo_ks (v : Word) (s : State) : (setBlkLo v s).ks = s.ks := rfl
@[simp] theorem setBlkLo_eng (v : Word) (s : State) : (setBlkLo v s).eng = s.eng := rfl
@[simp] theorem setBlkLo_pending (v : Word) (s : State) : (setBlkLo v s).pending = s.pending := rfl
@[simp] theorem setBlkLo_replies (v : Word) (s : State) : (setBlkLo v s).replies = s.replies := rfl

@[simp] theorem setKeyHi_build (v : Word) (s : State) : (setKeyHi v s).build = s.build := rfl
@[simp] theorem setKeyHi_blk (v : Word) (s : State) : (setKeyHi v s).blk = s.blk := rfl
@[simp] theorem setKeyHi_key (v : Word) (s : State) : (setKeyHi v s).key = v.extractLsb' 0 24 ++ s.key.extractLsb' 0 32 := rfl
@[simp] theorem setKeyHi_len (v : Word) (s : State) : (setKeyHi v s).len = s.len := rfl
@[simp] theorem setKeyHi_err (v : Word) (s : State) : (setKeyHi v s).err = s.err := rfl
@[simp] theorem setKeyHi_ks (v : Word) (s : State) : (setKeyHi v s).ks = s.ks := rfl
@[simp] theorem setKeyHi_eng (v : Word) (s : State) : (setKeyHi v s).eng = s.eng := rfl
@[simp] theorem setKeyHi_pending (v : Word) (s : State) : (setKeyHi v s).pending = s.pending := rfl
@[simp] theorem setKeyHi_replies (v : Word) (s : State) : (setKeyHi v s).replies = s.replies := rfl

@[simp] theorem setKeyLo_build (v : Word) (s : State) : (setKeyLo v s).build = s.build := rfl
@[simp] theorem setKeyLo_blk (v : Word) (s : State) : (setKeyLo v s).blk = s.blk := rfl
@[simp] theorem setKeyLo_key (v : Word) (s : State) : (setKeyLo v s).key = s.key.extractLsb' 32 24 ++ v := rfl
@[simp] theorem setKeyLo_len (v : Word) (s : State) : (setKeyLo v s).len = s.len := rfl
@[simp] theorem setKeyLo_err (v : Word) (s : State) : (setKeyLo v s).err = s.err := rfl
@[simp] theorem setKeyLo_ks (v : Word) (s : State) : (setKeyLo v s).ks = s.ks := rfl
@[simp] theorem setKeyLo_eng (v : Word) (s : State) : (setKeyLo v s).eng = s.eng := rfl
@[simp] theorem setKeyLo_pending (v : Word) (s : State) : (setKeyLo v s).pending = s.pending := rfl
@[simp] theorem setKeyLo_replies (v : Word) (s : State) : (setKeyLo v s).replies = s.replies := rfl

@[simp] theorem setLen_build (v : Word) (s : State) : (setLen v s).build = s.build := rfl
@[simp] theorem setLen_blk (v : Word) (s : State) : (setLen v s).blk = s.blk := rfl
@[simp] theorem setLen_key (v : Word) (s : State) : (setLen v s).key = s.key := rfl
@[simp] theorem setLen_len (v : Word) (s : State) : (setLen v s).len = ⟨v.extractLsb' 0 8, v.extractLsb' 8 8⟩ := rfl
@[simp] theorem setLen_err (v : Word) (s : State) : (setLen v s).err = s.err := rfl
@[simp] theorem setLen_ks (v : Word) (s : State) : (setLen v s).ks = s.ks := rfl
@[simp] theorem setLen_eng (v : Word) (s : State) : (setLen v s).eng = s.eng := rfl
@[simp] theorem setLen_pending (v : Word) (s : State) : (setLen v s).pending = s.pending := rfl
@[simp] theorem setLen_replies (v : Word) (s : State) : (setLen v s).replies = s.replies := rfl

@[simp] theorem engStart_build (d : Dir) (s : State) : (engStart d s).build = s.build := rfl
@[simp] theorem engStart_blk (d : Dir) (s : State) : (engStart d s).blk = s.blk := rfl
@[simp] theorem engStart_key (d : Dir) (s : State) : (engStart d s).key = s.key := rfl
@[simp] theorem engStart_len (d : Dir) (s : State) : (engStart d s).len = s.len := rfl
@[simp] theorem engStart_err (d : Dir) (s : State) : (engStart d s).err = s.err := rfl
@[simp] theorem engStart_ks (d : Dir) (s : State) : (engStart d s).ks = s.ks := rfl
@[simp] theorem engStart_eng (d : Dir) (s : State) : (engStart d s).eng = ⟨.run, d, 0, swapIf (swapsBefore s.build.swapMode d) s.blk⟩ := rfl
@[simp] theorem engStart_pending (d : Dir) (s : State) : (engStart d s).pending = s.pending := rfl
@[simp] theorem engStart_replies (d : Dir) (s : State) : (engStart d s).replies = s.replies := rfl

@[simp] theorem engFinish_build (s : State) : (engFinish s).build = s.build := rfl
@[simp] theorem engFinish_blk (s : State) : (engFinish s).blk = swapIf (swapsAfter s.build.swapMode s.eng.dir) s.eng.w := rfl
@[simp] theorem engFinish_key (s : State) : (engFinish s).key = s.key := rfl
@[simp] theorem engFinish_len (s : State) : (engFinish s).len = s.len := rfl
@[simp] theorem engFinish_err (s : State) : (engFinish s).err = .none := rfl
@[simp] theorem engFinish_ks (s : State) : (engFinish s).ks = s.ks := rfl
@[simp] theorem engFinish_eng (s : State) : (engFinish s).eng = ⟨.idle, s.eng.dir, s.eng.round, swapIf (swapsAfter s.build.swapMode s.eng.dir) s.eng.w⟩ := rfl
@[simp] theorem engFinish_pending (s : State) : (engFinish s).pending = s.pending := rfl
@[simp] theorem engFinish_replies (s : State) : (engFinish s).replies = s.replies := rfl

@[simp] theorem applyReset_build (s : State) : (applyReset s).build = s.build := rfl
@[simp] theorem applyReset_blk (s : State) : (applyReset s).blk = 0#64 := rfl
@[simp] theorem applyReset_key (s : State) : (applyReset s).key = 0#56 := rfl
@[simp] theorem applyReset_len (s : State) : (applyReset s).len = ⟨64#8, 56#8⟩ := rfl
@[simp] theorem applyReset_err (s : State) : (applyReset s).err = .none := rfl
@[simp] theorem applyReset_ks (s : State) : (applyReset s).ks = Scheduler.reset s.build.nr := rfl
@[simp] theorem applyReset_eng (s : State) : (applyReset s).eng = Engine.reset := rfl
@[simp] theorem applyReset_pending (s : State) : (applyReset s).pending = s.pending := rfl
@[simp] theorem applyReset_replies (s : State) : (applyReset s).replies = s.replies := rfl

@[simp] theorem resetOf_build (b : Build) : (State.resetOf b).build = b := rfl
@[simp] theorem resetOf_blk (b : Build) : (State.resetOf b).blk = 0#64 := rfl
@[simp] theorem resetOf_key (b : Build) : (State.resetOf b).key = 0#56 := rfl
@[simp] theorem resetOf_len (b : Build) : (State.resetOf b).len = ⟨64#8, 56#8⟩ := rfl
@[simp] theorem resetOf_err (b : Build) : (State.resetOf b).err = .none := rfl
@[simp] theorem resetOf_ks (b : Build) : (State.resetOf b).ks = Scheduler.reset b.nr := rfl
@[simp] theorem resetOf_eng (b : Build) : (State.resetOf b).eng = Engine.reset := rfl
@[simp] theorem resetOf_pending (b : Build) : (State.resetOf b).pending = [] := rfl
@[simp] theorem resetOf_replies (b : Build) : (State.resetOf b).replies = [] := rfl

@[simp] theorem ksAdvance_l (nr : Nat) (d : KsDir) (ks : Scheduler) : (ksAdvance nr d ks).l = ks.l := rfl
@[simp] theorem ksAdvance_r (nr : Nat) (d : KsDir) (ks : Scheduler) : (ksAdvance nr d ks).r = ks.r := rfl
@[simp] theorem ksAdvance_sk (nr : Nat) (d : KsDir) (ks : Scheduler) : (ksAdvance nr d ks).sk = ks.sk := rfl
@[simp] theorem ksAdvance_state (nr : Nat) (d : KsDir) (ks : Scheduler) : (ksAdvance nr d ks).state = if ks.taken + 1 = nr then .exhausted else ks.state := rfl
@[simp] theorem ksAdvance_dir (nr : Nat) (d : KsDir) (ks : Scheduler) : (ksAdvance nr d ks).dir = d := rfl
@[simp] theorem ksAdvance_taken (nr : Nat) (d : KsDir) (ks : Scheduler) : (ksAdvance nr d ks).taken = ks.taken + 1 := rfl

end Sys2Proof.Machine
end

