-- ==== Sys2Proof/Laws/Access.lean ====
section
/-!
SUPPORT. What the completions of an access can answer, and what decoding does with the register of an offset.
-/

namespace Sys2Proof.Machine

@[simp] theorem completeRead_eq (w : Word) (s : State) :
    completeRead w s = .next { s with replies := s.replies ++ [.data w] } := rfl

@[simp] theorem completeWrite_eq (s : State) : completeWrite s = .next { s with replies := s.replies ++ [.done] } := rfl

@[simp] theorem completeCommand_next (s : State) :
    completeCommand (.next s) = .next { s with replies := s.replies ++ [.done] } := rfl

/-- A command answers a next state only where its transform does, and adds the write's completion to it. -/
theorem completeCommand_cases {r : Result} {t : State} (h : completeCommand r = .next t) :
    ∃ s, r = .next s ∧ t = { s with replies := s.replies ++ [.done] } := by
  cases r with
  | next s => exact ⟨s, rfl, by cases h; rfl⟩
  | fault _ => cases h
  | refused _ => cases h

end Sys2Proof.Machine

namespace Sys2Proof

/-- The register at a register's own offset is that register. -/
@[simp] theorem Reg.atOff_off (r : Reg) : Reg.atOff r.off = some r := by
  cases r <;> rfl

/-- A 32-bit access to a register decodes by register and direction. -/
@[simp] theorem decode_regAccess (r : Reg) (d : BusDir) : decode ⟨r.off, 4, d⟩ = decodeReg r d := by
  simp [decode]

/-- An offset without a register is one that is not a multiple of 4 (20_memory.md R71). -/
theorem Reg.atOff_eq_none (off : BitVec 5) : Reg.atOff off = none ↔ off.toNat % 4 ≠ 0 := by
  revert off; decide

/-- An access that is not accepted decodes to BUS_ERROR, with its own fields (20_memory.md R73). -/
theorem decode_rejected {a : Access} (h : accepted a.off a.size = false) : decode a = .busError a.off a.size a.dir := by
  by_cases hs : a.size = 4
  · have ho : Reg.atOff a.off = none := (Reg.atOff_eq_none _).2 (by simpa [accepted, hs] using h)
    simp [decode, hs, ho]
  · simp [decode, hs]

/-- A write to CMD decodes by its word. -/
@[simp] theorem decode_cmdWrite (w : Word) : decode (cmdWrite w) = decodeCmd w := by
  simp [cmdWrite, decodeReg]

end Sys2Proof
end

