-- ==== Sys2Proof/Laws/Bits.lean ====
section
/-!
SUPPORT. The halves of a block and of a key, the half-swap, and the rotation of a key half.
-/

namespace Sys2Proof.Machine

@[simp] theorem leftHalf_joinHalves (l r : Word) : leftHalf (joinHalves l r) = l := by
  apply BitVec.eq_of_getLsbD_eq
  intro i hi
  simp only [leftHalf, joinHalves, BitVec.getLsbD_extractLsb', BitVec.getLsbD_append]
  simp [hi]

@[simp] theorem rightHalf_joinHalves (l r : Word) : rightHalf (joinHalves l r) = r := by
  apply BitVec.eq_of_getLsbD_eq
  intro i hi
  simp only [rightHalf, joinHalves, BitVec.getLsbD_extractLsb', BitVec.getLsbD_append]
  simp [hi]

@[simp] theorem joinHalves_halves (b : Block) : joinHalves (leftHalf b) (rightHalf b) = b := by
  apply BitVec.eq_of_getLsbD_eq
  intro i hi
  simp only [joinHalves, leftHalf, rightHalf, BitVec.getLsbD_append, BitVec.getLsbD_extractLsb']
  by_cases h : i < 32
  · simp [h]
  · have h2 : i - 32 < 32 := by omega
    have h3 : 32 + (i - 32) = i := by omega
    simp [h, h2, h3]

theorem block_ext {a b : Block} (hl : leftHalf a = leftHalf b) (hr : rightHalf a = rightHalf b) : a = b := by
  rw [← joinHalves_halves a, ← joinHalves_halves b, hl, hr]

@[simp] theorem leftHalf_swap64 (b : Block) : leftHalf (swap64 b) = rightHalf b := leftHalf_joinHalves _ _

@[simp] theorem rightHalf_swap64 (b : Block) : rightHalf (swap64 b) = leftHalf b := rightHalf_joinHalves _ _

@[simp] theorem swap64_joinHalves (l r : Word) : swap64 (joinHalves l r) = joinHalves r l := by
  simp [swap64]

@[simp] theorem swap64_swap64 (b : Block) : swap64 (swap64 b) = b := by
  apply block_ext <;> simp

/-- The rotation amount counts modulo 28 (00_scope.md R19). -/
theorem rotl28_mod (x : KeyHalf) (r : Nat) : rotl28 x (r % 28) = rotl28 x r := by
  simp [rotl28, BitVec.rotateLeft_mod_eq_rotateLeft]

/-- Bit `i` of a rotation by less than 28. -/
theorem getLsbD_rotl28 (x : KeyHalf) (r i : Nat) (hi : i < 28) :
    (rotl28 x r).getLsbD i = x.getLsbD ((i + (28 - r % 28)) % 28) := by
  have hr : r % 28 < 28 := Nat.mod_lt _ (by omega)
  simp only [rotl28, BitVec.getLsbD_rotateLeft]
  by_cases h : i < r % 28
  · have : (i + (28 - r % 28)) % 28 = 28 - r % 28 + i := by omega
    simp [h, this]
  · have : (i + (28 - r % 28)) % 28 = i - r % 28 := by omega
    simp [h, this, hi]

@[simp] theorem rotl28_zero (x : KeyHalf) : rotl28 x 0 = x := by
  apply BitVec.eq_of_getLsbD_eq
  intro i hi
  rw [getLsbD_rotl28 _ _ _ hi]
  congr 1
  omega

/-- Rotations compose additively (42_key_scheduler.md R185). -/
theorem rotl28_rotl28 (x : KeyHalf) (a b : Nat) : rotl28 (rotl28 x a) b = rotl28 x (a + b) := by
  apply BitVec.eq_of_getLsbD_eq
  intro i hi
  rw [getLsbD_rotl28 _ _ _ hi, getLsbD_rotl28 _ _ _ (Nat.mod_lt _ (by omega)), getLsbD_rotl28 _ _ _ hi]
  congr 1
  omega

end Sys2Proof.Machine
end

