-- ==== Sys2Proof/Laws/Scheduler.lean ====
section
/-!
SUPPORT. What the scheduler's operations can answer: the loads, the retrievals, and the loop of generation steps.
-/

namespace Sys2Proof.Machine

/-- The loop of KS_LOAD makes one subkey per step (42_key_scheduler.md R184). -/
@[simp] theorem ksGenerate_length (rot n : Nat) (l r : KeyHalf) : (ksGenerate rot n l r).2.2.length = n := by
  induction n generalizing l r with
  | zero => rfl
  | succ n ih => simp [ksGenerate, ih]

/-- A load that answers a scheduler had the legal key length, and leaves the loop's subkeys with none of them taken. -/
theorem ksLoad_ok {b : Build} {k : Key} {kbits : Byte} {ks : Scheduler} (h : ksLoad b k kbits = .ok ks) :
    kbits = 56#8 ∧ ks.sk = (ksGenerate b.rot b.nr (keyLeft k) (keyRight k)).2.2 ∧
      ks.l = (ksGenerate b.rot b.nr (keyLeft k) (keyRight k)).1 ∧
      ks.r = (ksGenerate b.rot b.nr (keyLeft k) (keyRight k)).2.1 ∧
      ks.state = .sched ∧ ks.dir = .none ∧ ks.taken = 0 := by
  by_cases hk : kbits = 56#8
  · subst hk
    simp [ksLoad] at h
    subst h
    simp
  · simp [ksLoad, hk] at h

/-- A load with the legal key length answers a scheduler. -/
theorem ksLoad_legal (b : Build) (k : Key) : ∃ ks, ksLoad b k 56#8 = .ok ks := ⟨_, rfl⟩

/-- KS.dir of a command's direction. -/
def Dir.ksDir : Dir → KsDir
  | .enc => .enc
  | .dec => .dec

/-- The index a retrieval reads (42_key_scheduler.md R188, R189). -/
def ksIndex (nr : Nat) (d : Dir) (ks : Scheduler) : Nat :=
  match d with
  | .enc => ks.taken
  | .dec => nr - 1 - ks.taken

/-- What a successful retrieval is: a scheduler that is loaded, not locked to the other direction and not spent, the
subkey at the direction's index, and one more taken (42_key_scheduler.md R188, R189). -/
theorem ksNextIn_ok {nr : Nat} {d : Dir} {ks ks' : Scheduler} {k : Word} (h : ksNextIn nr d ks = .ok k ks') :
    ks.state ≠ .uninit ∧ (ks.dir = .none ∨ ks.dir = d.ksDir) ∧ ks.taken ≠ nr ∧
      ks.sk[ksIndex nr d ks]? = some k ∧ ks' = ksAdvance nr d.ksDir ks := by
  cases d with
  | enc =>
    simp only [ksNextIn, ksNextEnc] at h
    split at h <;> try cases h
    split at h <;> try cases h
    split at h <;> try cases h
    split at h <;> cases h
    rename_i hs hd ht _ hk
    refine ⟨hs, ?_, ht, hk, rfl⟩
    cases hks : ks.dir <;> simp_all [Dir.ksDir]
  | dec =>
    simp only [ksNextIn, ksNextDec] at h
    split at h <;> try cases h
    split at h <;> try cases h
    split at h <;> try cases h
    split at h <;> cases h
    rename_i hs hd ht _ hk
    refine ⟨hs, ?_, ht, hk, rfl⟩
    cases hks : ks.dir <;> simp_all [Dir.ksDir]

/-- When a retrieval succeeds. -/
theorem ksNextIn_ready {nr : Nat} {d : Dir} {ks : Scheduler} {k : Word} (hs : ks.state ≠ .uninit)
    (hd : ks.dir = .none ∨ ks.dir = d.ksDir) (ht : ks.taken ≠ nr) (hk : ks.sk[ksIndex nr d ks]? = some k) :
    ksNextIn nr d ks = .ok k (ksAdvance nr d.ksDir ks) := by
  cases d <;> rcases hd with hd | hd <;> simp_all [ksNextIn, ksNextEnc, ksNextDec, ksIndex, Dir.ksDir]

end Sys2Proof.Machine
end

