-- ==== Sys2Proof/Laws/Engine.lean ====
section
/-!
SUPPORT. What the engine sequencer's micro-steps and checks can answer.
-/

namespace Sys2Proof.Machine

/-- A micro-step that answers a next state took one subkey and made one round (43_engine_commands.md R224). -/
theorem engRound_next {s t : State} (h : engRound s = .next t) :
    ∃ k ks, ksNextIn s.build.nr s.eng.dir s.ks = .ok k ks ∧
      t = { s with ks := ks, eng := { s.eng with w := roundFn s.build s.eng.w k, round := s.eng.round + 1 } } := by
  simp only [engRound] at h
  split at h
  · rename_i k ks hk
    cases h
    exact ⟨k, ks, hk, rfl⟩
  · cases h
  · cases h

/-- A micro-step whose retrieval succeeds. -/
theorem engRound_ok {s : State} {k : Word} {ks : Scheduler} (h : ksNextIn s.build.nr s.eng.dir s.ks = .ok k ks) :
    engRound s = .next
      { s with ks := ks, eng := { s.eng with w := roundFn s.build s.eng.w k, round := s.eng.round + 1 } } := by
  simp [engRound, h]

/-- The checks in their order (43_engine_commands.md R225), and the start of the round phase where both hold. -/
theorem engBegin_cases (d : Dir) (s : State) :
    (s.len.blkBits ≠ 64#8 ∧ engBegin d s = .error .blockLen) ∨
    (s.len.blkBits = 64#8 ∧ s.len.keyBits ≠ 56#8 ∧ engBegin d s = .error .keyLen) ∨
    (s.len.blkBits = 64#8 ∧ s.len.keyBits = 56#8 ∧
      ∃ ks, ksLoad s.build s.key 56#8 = .ok ks ∧ engBegin d s = .ok (engStart d { s with ks := ks })) := by
  by_cases hb : s.len.blkBits = 64#8
  · by_cases hk : s.len.keyBits = 56#8
    · obtain ⟨ks, hks⟩ := ksLoad_legal s.build s.key
      exact .inr (.inr ⟨hb, hk, ks, hks, by simp [engBegin, hb, hk, hks]⟩)
    · exact .inr (.inl ⟨hb, hk, by simp [engBegin, ksLoad, hb, hk]⟩)
  · exact .inl ⟨hb, by simp [engBegin, hb]⟩

/-- LEN is legal exactly when both checks hold. -/
theorem lenLegal_iff (s : State) : s.lenLegal = true ↔ s.len.blkBits = 64#8 ∧ s.len.keyBits = 56#8 := by
  simp [State.lenLegal]

/-- A scheduler in the middle of a command in direction `d` with `n` retrievals made (43_engine_commands.md R228). -/
structure MidCommand (nr : Nat) (d : Dir) (n : Nat) (ks : Scheduler) : Prop where
  store : ks.sk.length = nr
  taken : ks.taken = n
  loaded : ks.state ≠ .uninit
  dir : ks.dir = .none ∨ ks.dir = d.ksDir

/-- In the middle of a command with retrievals left, a retrieval succeeds, and leaves the middle of the command
(43_engine_commands.md R228). -/
theorem MidCommand.next {nr n : Nat} {d : Dir} {ks : Scheduler} (h : MidCommand nr d n ks) (hn : n < nr) :
    ∃ k, ks.sk[ksIndex nr d ks]? = some k ∧ ksNextIn nr d ks = .ok k (ksAdvance nr d.ksDir ks) ∧
      MidCommand nr d (n + 1) (ksAdvance nr d.ksDir ks) := by
  have hi : ksIndex nr d ks < ks.sk.length := by
    rw [h.store]
    cases d <;> simp [ksIndex, h.taken] <;> omega
  refine ⟨ks.sk[ksIndex nr d ks], by simp [hi], ?_, ?_⟩
  · exact ksNextIn_ready h.loaded h.dir (by rw [h.taken]; omega) (by simp [hi])
  · refine ⟨by simpa using h.store, by simp [h.taken], ?_, .inr (by simp)⟩
    simp only [ksAdvance_state]
    split
    · simp
    · exact h.loaded

/-- A load leaves the beginning of a command, in either direction. -/
theorem midCommand_of_load {b : Build} {k : Key} {ks : Scheduler} (h : ksLoad b k 56#8 = .ok ks) (d : Dir) :
    MidCommand b.nr d 0 ks := by
  obtain ⟨-, hsk, -, -, hs, hd, ht⟩ := ksLoad_ok h
  exact ⟨by simp [hsk], ht, by simp [hs], .inl hd⟩

end Sys2Proof.Machine
end

