-- ==== Sys2Proof/Laws/PerInstr.lean ====
section
/-!
SUPPORT. The family `EncodingAccepted`: the transaction of an operation is an access the bus accepts, 32 bits wide and
aligned, for every well-formed operation but BUS_ERROR (spec/20_memory.md R72, R73; spec/30_encoding.md R113).
-/

namespace Sys2Proof.Laws.EncodingAccepted

/-- The bus accepts the transaction of every well-formed operation but BUS_ERROR, whose transaction it does not. -/
def Statement (i : Instr) : Prop :=
  i.wf = true →
    (accepted (encode i).off (encode i).size = true ↔ ∀ off size dir, i ≠ .busError off size dir)

theorem nop : Statement .nop := by simp [Statement]; decide
theorem enc : Statement .enc := by simp [Statement]; decide
theorem dec : Statement .dec := by simp [Statement]; decide
theorem illegal (w : Word) : Statement (.illegal w) := fun _ => by simp [encode, cmdWrite, Reg.off, accepted]
theorem rdCmd : Statement .rdCmd := by simp [Statement]; decide
theorem rdStatus : Statement .rdStatus := by simp [Statement]; decide
theorem wrStatus (v : Word) : Statement (.wrStatus v) := fun _ => by simp [encode, regWrite, Reg.off, accepted]
theorem rdConfig : Statement .rdConfig := by simp [Statement]; decide
theorem wrConfig (v : Word) : Statement (.wrConfig v) := fun _ => by simp [encode, regWrite, Reg.off, accepted]
theorem rdLen : Statement .rdLen := by simp [Statement]; decide
theorem wrLen (v : Word) : Statement (.wrLen v) := fun _ => by simp [encode, regWrite, Reg.off, accepted]
theorem rdBlkHi : Statement .rdBlkHi := by simp [Statement]; decide
theorem wrBlkHi (v : Word) : Statement (.wrBlkHi v) := fun _ => by simp [encode, regWrite, Reg.off, accepted]
theorem rdBlkLo : Statement .rdBlkLo := by simp [Statement]; decide
theorem wrBlkLo (v : Word) : Statement (.wrBlkLo v) := fun _ => by simp [encode, regWrite, Reg.off, accepted]
theorem rdKeyHi : Statement .rdKeyHi := by simp [Statement]; decide
theorem wrKeyHi (v : Word) : Statement (.wrKeyHi v) := fun _ => by simp [encode, regWrite, Reg.off, accepted]
theorem rdKeyLo : Statement .rdKeyLo := by simp [Statement]; decide
theorem wrKeyLo (v : Word) : Statement (.wrKeyLo v) := fun _ => by simp [encode, regWrite, Reg.off, accepted]
theorem busError (off : BitVec 5) (size : Nat) (dir : BusDir) : Statement (.busError off size dir) := fun h => by
  have h' : accepted off size = false := by simpa [Instr.wf] using h
  simp [encode, h']

end Sys2Proof.Laws.EncodingAccepted
end

