-- ==== Sys2Proof/Laws/Step.lean ====
section
/-!
SUPPORT. What a step is, by the next input and the engine's phase, and the unfolding of a run.
-/

namespace Sys2Proof.Machine

@[simp] theorem run_zero (s : State) : run 0 s = .next s := rfl

/-- A run makes its first step, and goes on from there if there is a next state. -/
theorem run_succ (n : Nat) (s : State) :
    run (n + 1) s =
      match step s with
      | .next s' => run n s'
      | .fault r => .fault r
      | .refused r => .refused r := by
  have hstep : Sys2Proof.core.step s = step s := rfl
  cases h : step s <;> rw [h] at hstep <;> simp only [run, Host.Core.run, hstep] <;> rfl

/-- An accepted access is executed. -/
theorem serveAccess_accepted {a : Access} (h : accepted a.off a.size = true) (s : State) :
    serveAccess a s = exec (decode a) s := by simp [serveAccess, h]

/-- An access that is not accepted is refused (20_memory.md R73). -/
theorem serveAccess_rejected {a : Access} (h : accepted a.off a.size = false) (s : State) :
    serveAccess a s = .refused .busErrorAccess := by simp [serveAccess, h]

/-- A step is one of five: a reset, a micro-step of a running engine, an accepted access executed by an idle engine, an
access refused there, or nothing to do. -/
theorem step_cases (s : State) :
    (∃ rest, s.pending = .reset :: rest ∧ step s = .next (applyReset { s with pending := rest })) ∨
    (s.pending.head? ≠ some .reset ∧ s.eng.phase = .run ∧ step s = microStep s) ∨
    (∃ a rest, s.pending = .access a :: rest ∧ s.eng.phase = .idle ∧ accepted a.off a.size = true ∧
      step s = exec (decode a) { s with pending := rest }) ∨
    (∃ a rest, s.pending = .access a :: rest ∧ s.eng.phase = .idle ∧ accepted a.off a.size = false ∧
      step s = .refused .busErrorAccess) ∨
    (s.pending = [] ∧ s.eng.phase = .idle ∧ step s = .next s) := by
  cases hp : s.pending with
  | nil =>
    cases hi : s.eng.phase with
    | idle => exact .inr (.inr (.inr (.inr ⟨rfl, rfl, by simp [step, hp, hi]⟩)))
    | run => exact .inr (.inl ⟨by simp, rfl, by simp [step, hp, hi]⟩)
  | cons i rest =>
    cases i with
    | reset => exact .inl ⟨rest, rfl, by simp [step, hp]⟩
    | access a =>
      cases hi : s.eng.phase with
      | idle =>
        cases ha : accepted a.off a.size with
        | true => exact .inr (.inr (.inl ⟨a, rest, rfl, rfl, ha, by simp [step, hp, hi, serveAccess, ha]⟩))
        | false => exact .inr (.inr (.inr (.inl ⟨a, rest, rfl, rfl, ha, by simp [step, hp, hi, serveAccess, ha]⟩)))
      | run => exact .inr (.inl ⟨by simp, rfl, by simp [step, hp, hi]⟩)

end Sys2Proof.Machine
end

