-- ==== Sys2Proof/Tests/Slice0.lean ====
section
/-!
SUPPORT. Tests and witnesses. A test's expected value is the spec's: the examples of its rules, the vectors of
spec/95_test_vectors.md, or words written out from the encodings of spec/20_memory.md R71 and spec/30_encoding.md. A
`witness_<Name>` shows a concrete input that meets the hypotheses of `Obligations.<Name>`, clause by clause.
-/

namespace Sys2Proof.Tests

open Sys2Proof.Machine

set_option maxRecDepth 20000

/- ## Small builds and states -/

/-- The build of the test instantiation TI-ROT (95_test_vectors.md): SBOX(x) = x + 1, PTABLE[i] = ((i + 1) mod 32) + 1. -/
def rotBuild : Build where
  nr := 10
  rot := 1
  swapMode := .decBracket
  sbox := ⟨⟨(List.range 256).map fun i => BitVec.ofNat 8 (i + 1)⟩, by simp⟩
  ptable := ⟨⟨(List.range 32).map fun i => (i + 1) % 32 + 1⟩, by simp⟩

/-- The build of the test instantiation TI-ID (95_test_vectors.md). -/
def idBuild : Build :=
  { rotBuild with sbox := ⟨⟨(List.range 256).map (BitVec.ofNat 8)⟩, by simp⟩, ptable := identityPtable }

/-- TI-ROT with two rounds, the build of V-ENG-E. -/
def twoBuild : Build := { rotBuild with nr := 2 }

/-- A build right after reset. -/
def fresh : State := State.resetOf rotBuild

/-- B1 and K1 of 95_test_vectors.md in a build right after reset. -/
def loaded (b : Build) : State :=
  { State.resetOf b with blk := 0x0123456789ABCDEF#64, key := 0x0123456789ABCD#56 }

/-- The state after an operation, seen through `f`. -/
def after {α : Type} (r : Result) (f : State → α) : Option α :=
  match r with
  | .next s => some (f s)
  | .fault _ => none
  | .refused _ => none

/-- The last answer. -/
def lastReply (s : State) : Option Reply := s.replies.getLast?

/-- Whether an answer is a next state. -/
def isNext {α : Type} (r : Host.Outcome α Fault Refusal) : Bool :=
  match r with
  | .next _ => true
  | .fault _ => false
  | .refused _ => false

/- ## Well-formedness: each check refuses an ill-formed term -/

/-- R103: the legal words are no ILLEGAL. -/
theorem test_wf_illegal_refuses :
    (Instr.illegal 0#32).wf = false ∧ (Instr.illegal 1#32).wf = false ∧ (Instr.illegal 2#32).wf = false ∧
      (Instr.illegal 3#32).wf = true := by decide

/-- R73: an accepted access is no BUS_ERROR; a wrong width or a wrong address is enough for one. -/
theorem test_wf_busError_refuses :
    (Instr.busError 0x1C#5 4 .read).wf = false ∧ (Instr.busError 0x1C#5 2 .read).wf = true ∧
      (Instr.busError 0x1D#5 4 .read).wf = true := by decide

/-- R9, R10: NR and ROT out of range. -/
theorem test_wf_build_range :
    Build.wf { rotBuild with nr := 0 } = false ∧ Build.wf { rotBuild with nr := 256 } = false ∧
      Build.wf { rotBuild with rot := 28 } = false ∧ Build.wf { rotBuild with nr := 255, rot := 27 } = true := by
  decide

/-- L1-6: the test instantiations pass the integrity condition, and entry 0 = entry 1 = 1 does not; nor does an entry 0 or
33. An instance of an illegal build does not exist. -/
theorem test_wf_build_tables :
    ptableOk rotBuild.ptable = true ∧ ptableOk idBuild.ptable = true ∧
      ptableOk (identityPtable.set 1 1) = false ∧ ptableOk (identityPtable.set 0 0) = false ∧
      ptableOk (identityPtable.set 31 33) = false ∧
      State.ofBuild? { rotBuild with ptable := identityPtable.set 1 1 } = none := by decide

/-- R14, R15, R280: no instance, a BASE that is no multiple of 32, two instances at one BASE. -/
theorem test_wf_platform :
    Platform.wf ⟨[], []⟩ = false ∧ Platform.wf ⟨[⟨0x10, fresh⟩], []⟩ = false ∧
      Platform.wf ⟨[⟨0x20, fresh⟩, ⟨0x20, fresh⟩], []⟩ = false ∧
      Platform.wf ⟨[⟨0x20, fresh⟩, ⟨0x40, fresh⟩], []⟩ = true := by decide

/- ## Decoding: every constructor, from transactions written out (R71, R101, R102, R113) -/

theorem test_decode_commands :
    decode ⟨0b00000#5, 4, .write 0b00000000000000000000000000000000#32⟩ = .nop ∧
      decode ⟨0b00000#5, 4, .write 0b00000000000000000000000000000001#32⟩ = .enc ∧
      decode ⟨0b00000#5, 4, .write 0b00000000000000000000000000000010#32⟩ = .dec ∧
      decode ⟨0b00000#5, 4, .write 0b00000000000000000000000000000011#32⟩ = .illegal 3#32 ∧
      decode ⟨0b00000#5, 4, .write 0b00000000000000000000000000010001#32⟩ = .illegal 0x11#32 ∧
      decode ⟨0b00000#5, 4, .write 0b10000000000000000000000000000000#32⟩ = .illegal 0x80000000#32 := by decide

theorem test_decode_reads :
    decode ⟨0b00000#5, 4, .read⟩ = .rdCmd ∧ decode ⟨0b00100#5, 4, .read⟩ = .rdStatus ∧
      decode ⟨0b01000#5, 4, .read⟩ = .rdConfig ∧ decode ⟨0b01100#5, 4, .read⟩ = .rdLen ∧
      decode ⟨0b10000#5, 4, .read⟩ = .rdBlkHi ∧ decode ⟨0b10100#5, 4, .read⟩ = .rdBlkLo ∧
      decode ⟨0b11000#5, 4, .read⟩ = .rdKeyHi ∧ decode ⟨0b11100#5, 4, .read⟩ = .rdKeyLo := by decide

theorem test_decode_writes :
    decode ⟨0b00100#5, 4, .write 1#32⟩ = .wrStatus 1#32 ∧ decode ⟨0b01000#5, 4, .write 2#32⟩ = .wrConfig 2#32 ∧
      decode ⟨0b01100#5, 4, .write 0x3940#32⟩ = .wrLen 0x3940#32 ∧
      decode ⟨0b10000#5, 4, .write 3#32⟩ = .wrBlkHi 3#32 ∧ decode ⟨0b10100#5, 4, .write 4#32⟩ = .wrBlkLo 4#32 ∧
      decode ⟨0b11000#5, 4, .write 5#32⟩ = .wrKeyHi 5#32 ∧ decode ⟨0b11100#5, 4, .write 6#32⟩ = .wrKeyLo 6#32 := by
  decide

theorem test_decode_busErrors :
    decode ⟨0x02#5, 4, .read⟩ = .busError 0x02#5 4 .read ∧
      decode ⟨0x00#5, 1, .write 1#32⟩ = .busError 0x00#5 1 (.write 1#32) ∧
      decode ⟨0x1C#5, 8, .read⟩ = .busError 0x1C#5 8 .read := by decide

/-- The three rows of spec/opcode_table.json with bits, and the first word past them. -/
theorem test_decodeTableWord :
    decodeTableWord 32 0x00000000 = some .nop ∧ decodeTableWord 32 0x00000001 = some .enc ∧
      decodeTableWord 32 0x00000002 = some .dec ∧ decodeTableWord 32 0x00000003 = some (.illegal 3#32) ∧
      decodeTableWord 64 0x00000001 = none := by decide

/- ## Primitives, schedule and round: the spec's vectors -/

/-- V-PRIM under TI-ROT: SUBST32 wraps each byte on its own, PERM32 gathers. -/
theorem test_primitives :
    subst32 rotBuild 0x12345678#32 = 0x13355779#32 ∧ subst32 rotBuild 0x000000FF#32 = 0x01010100#32 ∧
      perm32 rotBuild 0x80000000#32 = 0x00000001#32 ∧ perm32 rotBuild 0x40000000#32 = 0x80000000#32 := by
  decide

/-- V-ROUND-4 under TI-ROT, and V-ROUND-5: bit 31 of the block is not dropped. -/
theorem test_round :
    fFun rotBuild 0x89ABCDEF#32 0x12345678#32 = 0x39413931#32 ∧
      roundFn rotBuild 0x0123456789ABCDEF#64 0x12345678#32 = 0x89ABCDEF38627C56#64 ∧
      roundFn idBuild 0x0000000100000000#64 0#32 = 0x0000000000000001#64 := by decide

/-- R186's example, and V-KS-6: ROT = 27 rotates right by 1. -/
theorem test_ksNext :
    ksNext 1 0x0123456#28 0x789ABCD#28 = (0x02468AC#28, 0xF13579A#28, 0x02468ACF#32) ∧
      (ksGenerate 27 3 0x0123456#28 0x789ABCD#28).2.2 = [0x0091A2BB#32, 0x8048D155#32, 0xC02468AA#32] := by decide

/-- V-KS-10, and log entry 14: with NR = 1 and ROT = 1 the subkey ends in KEY[26:23] (R186), so KEY[23] enters it and
KEY[27] does not. -/
theorem test_oneRound_subkey :
    cipherSubkeys { rotBuild with nr := 1 } 0x0123456789ABCD#56 = [0x02468ACF#32] ∧
      cipherSubkeys { rotBuild with nr := 1 } 0x0123456709ABCD#56 = [0x02468ACE#32] ∧
      cipherSubkeys { rotBuild with nr := 1 } 0x0123456F89ABCD#56 = [0x02468ACF#32] := by decide

/-- L1-5 under a store of three: encryption takes it forward, decryption backward. -/
theorem test_retrieval_orders :
    let b : Build := { rotBuild with nr := 3, rot := 27 }
    ∀ ks, ksLoad b 0x0123456789ABCD#56 56#8 = .ok ks →
      (ksRetrieve 3 .enc 3 ks).map Prod.fst = some [0x0091A2BB#32, 0x8048D155#32, 0xC02468AA#32] ∧
        (ksRetrieve 3 .dec 3 ks).map Prod.fst = some [0xC02468AA#32, 0x8048D155#32, 0x0091A2BB#32] := by
  intro b ks h
  cases h
  decide

/-- V-KS-ERR: a retrieval after reset; one in the other direction; one too many. -/
theorem test_retrieval_errors :
    ksNextEnc 10 (Scheduler.reset 10) = .raise .ksUninit ∧
      ksNextDec 10 { Scheduler.reset 10 with state := .sched, dir := .enc, taken := 3 } = .raise .ksMixed ∧
      ksNextEnc 10 { Scheduler.reset 10 with state := .exhausted, dir := .enc, taken := 10 } = .raise .ksExhausted ∧
      ksNextDec 10 { Scheduler.reset 10 with state := .exhausted, dir := .enc, taken := 10 } = .raise .ksMixed := by
  decide

/- ## Instructions: one step each -/

/-- R221's example: ERR and the scheduler's view stay as they are. -/
theorem test_nop :
    after (exec .nop { fresh with err := .blockLen, ks := { fresh.ks with state := .exhausted, dir := .enc, taken := 10 } })
      statusView = some 0x00000A62#32 := by decide

/-- R222's example (TI-ROT), on BLK and STATUS. -/
theorem test_enc :
    after (exec .enc (loaded rotBuild)) (fun s => (s.blk, statusView s)) =
      some (0x4EF9B03B916A9F86#64, 0x00000A60#32) := by decide

/-- V-ENG-E (TI-ROT) in both swap modes: FINAL_SWAP swaps ENC's halves. -/
theorem test_enc_swapModes :
    after (exec .enc (loaded twoBuild)) (fun s => (s.blk, statusView s)) =
        some (0x18FFD524B34C4EB9#64, 0x00000260#32) ∧
      after (exec .enc (loaded { twoBuild with swapMode := .finalSwap })) (fun s => s.blk) =
        some 0xB34C4EB918FFD524#64 := by decide

/-- V-ENG-E (TI-ROT): DEC of B1. -/
theorem test_dec :
    after (exec .dec (loaded twoBuild)) (fun s => (s.blk, statusView s)) =
      some (0x0E4A8E8C84F56E3B#64, 0x000002A0#32) := by decide

/-- V-ENG-E (TI-ROT, FINAL_SWAP): DEC swaps after its rounds only. -/
theorem test_dec_finalSwap :
    after (exec .dec (loaded { twoBuild with swapMode := .finalSwap })) (fun s => s.blk) =
      some 0xC9FD31331D6CF7A2#64 := by decide

/-- R264's example and V-ERR-7: KEY_BITS 57 reports 3, both lengths wrong reports 2; BLK keeps its value. -/
theorem test_length_errors :
    after (exec .enc { loaded rotBuild with len := ⟨0x40#8, 0x39#8⟩ }) (fun s => (s.blk, statusView s)) =
        some (0x0123456789ABCDEF#64, 0x00000003#32) ∧
      after (exec .dec { loaded rotBuild with len := ⟨0x41#8, 0x39#8⟩ }) (fun s => (s.blk, statusView s)) =
        some (0x0123456789ABCDEF#64, 0x00000002#32) := by decide

/-- V-ERR-9: an illegal word is reported ahead of the length checks. -/
theorem test_illegal :
    after (exec (.illegal 3#32) { fresh with len := ⟨0x41#8, 0x39#8⟩ }) (fun s => (statusView s, lastReply s)) =
      some (0x00000001#32, some .done) := by decide

/-- V-REG-1. -/
theorem test_rdCmd : after (exec .rdCmd fresh) lastReply = some (some (.data 0#32)) := by decide

/-- R242's example. -/
theorem test_rdStatus :
    after (exec .rdStatus { fresh with ks := { fresh.ks with state := .exhausted, dir := .enc, taken := 10 } }) lastReply =
      some (some (.data 0x00000A60#32)) := by decide

/-- V-REG-5. -/
theorem test_wrStatus : after (exec (.wrStatus 0xFFFFFFFF#32) fresh) statusView = some 0#32 := by decide

/-- The CONFIG words of V-REG. -/
theorem test_rdConfig :
    configView (State.resetOf { rotBuild with nr := 1 }) = 0x00000101#32 ∧
      configView (State.resetOf { rotBuild with swapMode := .finalSwap }) = 0x0000210A#32 ∧
      configView (State.resetOf { rotBuild with nr := 255, rot := 27, swapMode := .finalSwap }) = 0x00003BFF#32 ∧
      after (exec .rdConfig fresh) lastReply = some (some (.data 0x0000010A#32)) := by decide

/-- V-REG-6. -/
theorem test_wrConfig : after (exec (.wrConfig 0#32) fresh) configView = some 0x0000010A#32 := by decide

/-- R241: LEN after reset. -/
theorem test_rdLen : after (exec .rdLen fresh) lastReply = some (some (.data 0x00003840#32)) := by decide

/-- V-REG-4 and R237's example. -/
theorem test_wrLen :
    after (exec (.wrLen 0xFFFF3940#32) fresh) lenView = some 0x00003940#32 ∧
      after (exec (.wrLen 0x00003740#32) fresh) (fun s => (s.len.blkBits, s.len.keyBits)) = some (64#8, 55#8) := by
  decide

/-- R239. -/
theorem test_rdBlk :
    after (exec .rdBlkHi (loaded rotBuild)) lastReply = some (some (.data 0x01234567#32)) ∧
      after (exec .rdBlkLo (loaded rotBuild)) lastReply = some (some (.data 0x89ABCDEF#32)) := by decide

/-- V-REG-7: the last write of BLK_HI keeps BLK_LO. -/
theorem test_wrBlkHi :
    after (exec (.wrBlkHi 0xDEADBEEF#32) (loaded rotBuild)) (fun s => s.blk) = some 0xDEADBEEF89ABCDEF#64 := by
  decide

/-- R234. -/
theorem test_wrBlkLo :
    after (exec (.wrBlkLo 0xDEADBEEF#32) (loaded rotBuild)) (fun s => s.blk) = some 0x01234567DEADBEEF#64 := by
  decide

/-- R240 and R77: key position 0 is KEY_HI bit 23. -/
theorem test_rdKey :
    after (exec .rdKeyHi { fresh with key := 0xFF23456789ABCD#56 }) lastReply = some (some (.data 0x00FF2345#32)) ∧
      after (exec .rdKeyLo (loaded rotBuild)) lastReply = some (some (.data 0x6789ABCD#32)) := by decide

/-- R235's example: bits [31:24] of the word are ignored. -/
theorem test_wrKeyHi :
    after (exec (.wrKeyHi 0xFF012345#32) fresh) (fun s => (s.key, keyHiView s)) =
      some (0x01234500000000#56, 0x00012345#32) := by decide

/-- R236. -/
theorem test_wrKeyLo :
    after (exec (.wrKeyLo 0x6F898BCC#32) (loaded rotBuild)) (fun s => s.key) = some 0x0123456F898BCC#56 := by
  decide

/-- V-REG-9: the FCE answers a 16-bit access by a BusError and keeps its state. -/
theorem test_busError :
    after (exec (decode ⟨0x0C#5, 2, .write 0#32⟩) fresh) (fun s => (lenView s, lastReply s)) =
      some (0x00003840#32, some .busError) := by decide

/- ## The step -/

/-- The first instruction after reset runs in the very next step, whatever the open tables are: here an illegal word. -/
theorem test_step_withFetchWord :
    after (step (State.reset.withFetchWord 32 0x11)) (fun s => (s.err, s.pending, s.replies)) =
      some (.illegalCmd, [], [.done]) := rfl

/-- ENC runs so too (V-ENG-E). -/
theorem test_step_enc :
    after (step ((loaded twoBuild).withFetchWord 32 1)) (fun s => s.blk) = some 0x18FFD524B34C4EB9#64 := by decide

/-- R73: a run refuses a 32-bit access at BASE+0x02, and a 16-bit one. -/
theorem test_step_refuses :
    step { fresh with pending := [.access ⟨0x02#5, 4, .read⟩] } = .refused .busErrorAccess ∧
      step { fresh with pending := [.access ⟨0x10#5, 2, .read⟩] } = .refused .busErrorAccess := ⟨rfl, rfl⟩

/-- A read of LEN of the second instance reaches it and no other (R74, R280). -/
theorem test_platform :
    (match Platform.step ⟨[⟨0x20, fresh⟩, ⟨0x40, fresh⟩], [.access ⟨0x4C, 4, .read⟩]⟩ with
      | .next p => p.fces.map fun u => u.state.replies
      | .fault _ => []
      | .refused _ => []) = [[], [.data 0x00003840#32]] := by decide

/-- R116's example of the script language, read from its text. -/
theorem test_script :
    parseLine ['L', 'D', 'B', 'L', 'K', ' ', '0', 'x', '0', '1', '2', '3', '4', '5', '6', '7', '8', '9', 'A', 'B', 'C',
      'D', 'E', 'F'] = some (some (.ldBlk 0x0123456789ABCDEF#64)) ∧
      encodeScript [.ldBlk 0x0123456789ABCDEF#64] =
        [⟨0x10#5, 4, .write 0x01234567#32⟩, ⟨0x14#5, 4, .write 0x89ABCDEF#32⟩] := by decide

/-- A script's expectation that is not met is reported by its place: the first read of STATUS after reset is not 1. -/
theorem test_script_mismatch :
    after (runScript [.rdErr (some 1#4), .rd .len (some 0x3840#32)] fresh) (fun s =>
      scriptMismatches 0 (scriptTransactions [.rdErr (some 1#4), .rd .len (some 0x3840#32)]) s.replies) = some [0] := by
  decide

/-- R78: byte 0 holds the first bits. -/
theorem test_bytes :
    (blockToBytes 0x0123456789ABCDEF#64)[0] = 0x01#8 ∧ (keyToBytes 0x0123456789ABCD#56)[6] = 0xCD#8 := by decide

/- ## Witnesses -/

/-- An engine in the middle of a command. -/
def running : State := { loaded rotBuild with eng := { fresh.eng with phase := .run, round := 3 } }

theorem witness_ResetInputGivesResetState :
    ({ running with pending := [.reset] } : State).pending = .reset :: [] := rfl

theorem witness_BuildNeverChanges : isNext (step ((loaded twoBuild).withFetchWord 32 1)) = true := by decide

theorem witness_DecodeOfEncode :
    Instr.dec.wf = true ∧ (Instr.illegal 0xFFFFFFFF#32).wf = true ∧ (Instr.busError 0x1F#5 4 .read).wf = true := by decide

theorem witness_LegalCommandWords :
    (0x10#32).extractLsb' 4 28 ≠ 0#28 ∧ 3 ≤ ((3#32).extractLsb' 0 4).toNat ∧
      (3#32 ≠ 0x00000000#32 ∧ 3#32 ≠ 0x00000001#32 ∧ 3#32 ≠ 0x00000002#32) := by decide

theorem witness_StepRunsDecodedAccess :
    accepted 0x1C#5 4 = true ∧ accepted 0x1D#5 4 = false ∧
    (fresh.withFetchWord 32 1).pending = .access (cmdWrite 1#32) :: [] ∧ (fresh.withFetchWord 32 1).eng.phase = .idle ∧
      0xFFFFFFFF < 2 ^ 32 := by decide

theorem witness_IdleOrBusyStep :
    (fresh.pending = [] ∧ fresh.eng.phase = .idle) ∧ running.pending.head? ≠ some .reset ∧ running.eng.phase = .run := by
  decide

theorem witness_SchedulerErrorsUnreachable :
    fresh.eng.phase = .idle ∧ fresh.err.hostVisible = true ∧ (fresh.withFetchWord 32 1).nextAccepted = true ∧
      ({ fresh with pending := [.access ⟨0x02#5, 4, .read⟩] } : State).nextAccepted = false := by decide

/-- The scheduler of a build after reset meets the scheduler's invariants. -/
theorem fresh_schedInv : SchedInv rotBuild.nr fresh.ks :=
  ⟨by decide, by decide, by decide, by decide, by decide⟩

/-- A build right after reset meets the invariant of a step. -/
theorem fresh_inv : fresh.Inv :=
  ⟨by decide, fresh_schedInv, by decide, by decide, by decide, by decide⟩

theorem witness_StepKeepsInvariant :
    ({ fresh with pending := [.access (regWrite .len 0#32)] } : State).Inv ∧
      isNext (step { fresh with pending := [.access (regWrite .len 0#32)] }) = true :=
  ⟨⟨fresh_inv.build, fresh_inv.ks, fresh_inv.notSched, fresh_inv.err, fresh_inv.idle, fresh_inv.round⟩, by decide⟩

theorem witness_ResetMeetsInvariant : rotBuild.wf = true := by decide

/-- A scheduler of one round, just loaded. -/
def oneLoaded : Scheduler where
  l := 0#28
  r := 0#28
  sk := [7#32]
  state := .sched
  dir := .none
  taken := 0

theorem witness_SchedulerInvariantKept :
    1 ≤ rotBuild.nr ∧ (∃ ks, ksLoad rotBuild 5#56 56#8 = .ok ks) ∧ SchedInv 1 oneLoaded ∧
      ksNextIn 1 .dec oneLoaded = .ok 7#32 (ksAdvance 1 .dec oneLoaded) :=
  ⟨by decide, ⟨_, rfl⟩, ⟨by decide, by decide, by decide, by decide, by decide⟩, by decide⟩

theorem witness_UnobservableStateNeverShows :
    ObsEq fresh { fresh with eng := { fresh.eng with w := 5#64, dir := .dec } } ∧ fresh.eng.phase = .idle ∧
      fresh ≠ { fresh with eng := { fresh.eng with w := 5#64, dir := .dec } } :=
  ⟨⟨rfl, rfl, rfl, rfl, rfl, rfl, rfl, rfl, rfl, rfl, rfl⟩, rfl, fun h => nomatch congrArg (fun s => s.eng.dir) h⟩

theorem witness_IllegalCommandWritesErrOnly : 3#32 ≠ 0#32 ∧ 3#32 ≠ 1#32 ∧ 3#32 ≠ 2#32 := by decide

theorem witness_EncryptionResult : (loaded rotBuild).build.wf = true ∧ (loaded rotBuild).lenLegal = true := by
  decide

theorem witness_DecryptionResult : (loaded idBuild).build.wf = true ∧ (loaded idBuild).lenLegal = true := by
  decide

/-- A state whose LEN holds the given lengths. -/
def withLen (b k : Byte) : State := { fresh with len := ⟨b, k⟩ }

theorem witness_LengthChecksWriteErrOnly :
    (withLen 63#8 56#8).len.blkBits ≠ 64#8 ∧
      ((withLen 64#8 57#8).len.blkBits = 64#8 ∧ (withLen 64#8 57#8).len.keyBits ≠ 56#8) ∧ 55#8 ≠ 56#8 := by decide

theorem witness_FirstFailingCheckIsReported :
    (3#32 ≠ 0#32 ∧ 3#32 ≠ 1#32 ∧ 3#32 ≠ 2#32) ∧
      ((2#32 = 1#32 ∨ 2#32 = 2#32) ∧ (withLen 65#8 57#8).len.blkBits ≠ 64#8) ∧
      ((1#32 = 1#32 ∨ 1#32 = 2#32) ∧ (withLen 64#8 57#8).len.blkBits = 64#8 ∧ (withLen 64#8 57#8).len.keyBits ≠ 56#8) ∧
      ((1#32 = 1#32 ∨ 1#32 = 2#32) ∧ fresh.len.blkBits = 64#8 ∧ fresh.len.keyBits = 56#8) := by decide

theorem witness_FirstFailingCheckIsReported_retrieval :
    fresh.ks.state = .uninit ∧
      ((ksAdvance 1 .dec oneLoaded).state ≠ .uninit ∧ (ksAdvance 1 .dec oneLoaded).dir = .dec) ∧
      ((ksAdvance 1 .enc oneLoaded).state ≠ .uninit ∧ (ksAdvance 1 .enc oneLoaded).dir = .enc) ∧
      ((ksAdvance 1 .enc oneLoaded).dir ≠ .dec ∧ (ksAdvance 1 .enc oneLoaded).taken = 1) ∧
      ((ksAdvance 1 .dec oneLoaded).dir ≠ .enc ∧ (ksAdvance 1 .dec oneLoaded).taken = 1) := by decide

theorem witness_RoundTripRestoresBlock : fresh.lenLegal = true := by decide

theorem witness_ResultDependsOnBlockAndKeyOnly :
    (loaded rotBuild).lenLegal = true ∧ ({ loaded rotBuild with err := .keyLen } : State).lenLegal = true ∧
      (loaded rotBuild).build = ({ loaded rotBuild with err := .keyLen } : State).build ∧
      (loaded rotBuild).blk = ({ loaded rotBuild with err := .keyLen } : State).blk ∧
      (loaded rotBuild).key = ({ loaded rotBuild with err := .keyLen } : State).key :=
  ⟨by decide, by decide, rfl, rfl, rfl⟩

/-- KEY[27] and KEY[13:0] flipped. -/
theorem witness_UnusedKeyBitsDoNotMatter :
    (loaded rotBuild).lenLegal = true ∧ (loaded rotBuild).build.nr = 10 ∧ (loaded rotBuild).build.rot = 1 ∧
      ∀ i, i < 56 → i ≠ 27 → 14 ≤ i →
        ((loaded rotBuild).key ^^^ 0x00000008003FFF#56).getLsbD i = (loaded rotBuild).key.getLsbD i := by decide

theorem witness_UnusedKeyBitsDoNotMatter_subkeys :
    cipherSubkeys rotBuild ((loaded rotBuild).key ^^^ 1#56) = cipherSubkeys rotBuild (loaded rotBuild).key := by decide

theorem witness_UnusedKeyBitsDoNotMatter_rotZero :
    (loaded { rotBuild with rot := 0 }).build.rot % 28 = 0 ∧
      (0x01234567FFFFFF#56).extractLsb' 24 32 = (loaded { rotBuild with rot := 0 }).key.extractLsb' 24 32 := by
  decide

/-- One round and ROT = 1: KEY[27] and KEY[22:0] flipped. -/
theorem witness_UnusedKeyBitsDoNotMatter_oneRound :
    (loaded { rotBuild with nr := 1 }).build.nr = 1 ∧
      (0x0123456FF65432#56).extractLsb' 28 28 = (loaded { rotBuild with nr := 1 }).key.extractLsb' 28 28 ∧
      (rotl28 (keyRight 0x0123456FF65432#56) 1).extractLsb' 24 4 =
        (rotl28 (keyRight (loaded { rotBuild with nr := 1 }).key) 1).extractLsb' 24 4 := by decide

/-- Keys that agree on KEY[55:24] and differ in KEY[23]: one round with ROT = 1, and with ROT = 0. -/
theorem witness_OneRoundKeyUse :
    ({ rotBuild with nr := 1 } : Build).nr = 1 ∧
      (0x0123456709ABCD#56).extractLsb' 24 32 = (0x0123456789ABCD#56).extractLsb' 24 32 ∧
      cipherSubkeys { rotBuild with nr := 1, rot := 1 } 0x0123456709ABCD#56 ≠
        cipherSubkeys { rotBuild with nr := 1, rot := 1 } 0x0123456789ABCD#56 ∧
      cipherSubkeys { rotBuild with nr := 1, rot := 0 } 0x0123456709ABCD#56 =
        cipherSubkeys { rotBuild with nr := 1, rot := 0 } 0x0123456789ABCD#56 := by decide

theorem witness_MicroStepsRefineCommand :
    (∃ s₀, engBegin .dec (loaded rotBuild) = .ok s₀) ∧ (loaded rotBuild).pending.head? ≠ some .reset :=
  ⟨⟨_, rfl⟩, by decide⟩

theorem witness_ResetAbandonsRunningCommand :
    (∃ s₀, engBegin .enc (loaded rotBuild) = .ok s₀) ∧ 10 ≤ (loaded rotBuild).build.nr := ⟨⟨_, rfl⟩, by decide⟩

theorem witness_SchedulerViewAfterCommands :
    fresh.build.wf = true ∧ fresh.lenLegal = true ∧ (withLen 64#8 57#8).build.wf = true ∧
      (withLen 64#8 57#8).lenLegal = false ∧ fresh.ks.state.code ≠ 1#2 ∧ isNext (exec .nop fresh) = true := by
  decide

theorem witness_ScheduleClosedForm : 9 < rotBuild.nr := by decide

theorem witness_ScheduleSymmetry : ∃ ks, ksLoad rotBuild 0x0123456789ABCD#56 56#8 = .ok ks := ⟨_, rfl⟩

theorem witness_ScheduleExhausts : 1 ≤ rotBuild.nr ∧ ∃ ks, ksLoad rotBuild 0x0123456789ABCD#56 56#8 = .ok ks :=
  ⟨by decide, _, rfl⟩

/-- ROT = 14 with two rounds (V-KS-7), and a key whose halves are equal (V-KS-5). -/
theorem witness_ScheduleCornerCases :
    (∃ ks, ksLoad { rotBuild with nr := 2, rot := 14 } 0x80000008000000#56 56#8 = .ok ks) ∧
      1 < 2 ∧ (1 + 1) * 14 % 28 = 0 ∧ 0xFFFFFFFFFFFFFF#56 = BitVec.allOnes 56 ∧
      (0x80000008000000#56).extractLsb' 28 28 = (0x80000008000000#56).extractLsb' 0 28 :=
  ⟨⟨_, rfl⟩, by decide, by decide, by decide, by decide⟩

theorem witness_PermutationGathers : ptableOk rotBuild.ptable = true ∧ 31 < 32 ∧ idBuild.ptable = identityPtable := by
  decide

theorem witness_PermutationBijective : ptableOk rotBuild.ptable = true := by decide

/-- R164's corner case: under TI-ID a subkey equal to the right half makes f zero. -/
theorem witness_RoundFormula :
    perm32 idBuild (subst32 idBuild ((0x0123456789ABCDEF#64).extractLsb' 0 32 ^^^ 0x89ABCDEF#32)) = 0#32 := by
  decide

theorem witness_StatusFields : fresh.ks.taken ≤ 255 := by decide

theorem witness_ConfigFields :
    fresh.build.wf = true ∧ fresh.build.nr = 10 ∧ fresh.build.rot = 1 ∧ fresh.build.swapMode = .decBracket := by
  decide

theorem witness_ReservedBitsReadZeroIgnoreWrites :
    (0xFFFF3940#32).extractLsb' 0 16 = (0x00003940#32).extractLsb' 0 16 ∧
      (0xFF012345#32).extractLsb' 0 24 = (0x00012345#32).extractLsb' 0 24 ∧ (0x10#32).extractLsb' 4 28 ≠ 0#28 := by decide

theorem witness_AccessSideEffects :
    Instr.rdStatus.isRead = true ∧ (Instr.wrKeyHi 1#32).isRegWrite = true ∧ (loaded rotBuild).build.wf = true ∧
      (loaded rotBuild).lenLegal = true := by decide

/-- Each half of the condition alone, at the window's last word and last byte. -/
theorem witness_BusErrorChangesNothing :
    ((⟨0x1C#5, 8, .read⟩ : Access).size ≠ 4 ∧ (⟨0x1C#5, 8, .read⟩ : Access).off.toNat % 4 = 0) ∧
      (⟨0x1F#5, 4, .read⟩ : Access).size = 4 ∧ (⟨0x1F#5, 4, .read⟩ : Access).off.toNat % 4 ≠ 0 := by decide

/-- A good access to the window's first word, then a bad one to its last byte. -/
theorem witness_RejectedAccessEndsTheRun :
    fresh.eng.phase = .idle ∧
      ({ fresh with pending := [.access (cmdWrite 0#32), .access ⟨0x1F#5, 4, .read⟩] } : State).pending =
        [cmdWrite 0#32].map Input.access ++ .access ⟨0x1F#5, 4, .read⟩ :: [] ∧
      ((cmdWrite 0#32).size = 4 ∧ (cmdWrite 0#32).off.toNat % 4 = 0) ∧
      (⟨0x1F#5, 4, .read⟩ : Access).off.toNat % 4 ≠ 0 ∧ [cmdWrite 0#32].length < 2 ∧ fresh.noBusError = true ∧
      isNext (step fresh) = true := by decide

theorem witness_ErrLifetime :
    Instr.nop.mayWriteErr = false ∧ isNext (exec .nop fresh) = true ∧
      ({ running with pending := [.reset] } : State).pending = .reset :: [] := by decide

theorem witness_OperationsKeepOtherState :
    isNext (exec .nop fresh) = true ∧ Instr.nop.mayWriteBlk = false ∧ Instr.enc.mayWriteKey = false ∧
      isNext (exec .enc (withLen 63#8 56#8)) = true ∧ Instr.enc.mayWriteLen = false ∧ (Instr.wrLen 0#32).mayWriteErr = false ∧
      (Instr.illegal 3#32).mayRun = false := by decide

/-- Two instances and an accepted access to the first: it reaches that one only, and the platform steps. -/
theorem witness_FcesAreIndependent :
    let p : Platform := ⟨[⟨0x20, fresh⟩, ⟨0x40, fresh⟩], [.access ⟨0x3C, 4, .write 1#32⟩]⟩
    p.pending = .access ⟨0x3C, 4, .write 1#32⟩ :: [] ∧ isNext p.step = true ∧
      (∀ u ∈ p.fces, u.state.eng.phase = .idle) ∧
      inputFor (.access ⟨0x3C, 4, .write 1#32⟩) 0 ⟨0x20, fresh⟩ = some (.access (regWrite .keyLo 1#32)) ∧
      (Input.access (regWrite .keyLo 1#32)).accepted = true ∧
      inputFor (.access ⟨0x3C, 4, .write 1#32⟩) 1 ⟨0x40, fresh⟩ = none := by decide

/-- The first and the last byte of a window, and the bytes before and after it. -/
theorem witness_WindowsAreDisjoint :
    (⟨[⟨0x20, fresh⟩, ⟨0x40, fresh⟩], []⟩ : Platform).wf = true ∧ inWindow 0x20 0x20 = true ∧
      inWindow 0x20 0x3F = true ∧ inWindow 0x20 0x1F = false ∧ inWindow 0x20 0x40 = false := by decide

theorem witness_ByteArraysAgree : 7 < 8 ∧ 6 < 7 := by decide

end Sys2Proof.Tests
end

section
/-!
PROOFS. The statements derived from 00_scope.md: the rotation R19, the windows of R14 and R280, the default build of R9,
R10 and R13.
-/

namespace Sys2Proof.Machine

/-- A rotation is the two shifts whose bits it joins (00_scope.md R19). -/
theorem rotl28_eq_or_shifts (x : KeyHalf) (r : Nat) :
    rotl28 x r = x <<< (r % 28) ||| x >>> (28 - r % 28) := rfl

/-- The shifts as naturals: only the left shift can pass bit 27, so their union is cut to 28 bits at once. -/
theorem rotl28_toNat (x : KeyHalf) (r : Nat) :
    (rotl28 x r).toNat = (x.toNat <<< (r % 28) ||| x.toNat >>> (28 - r % 28)) % 2 ^ 28 := by
  have right_lt : x.toNat >>> (28 - r % 28) < 2 ^ 28 :=
    Nat.lt_of_le_of_lt (Nat.shiftRight_le _ _) x.isLt
  rw [rotl28_eq_or_shifts, BitVec.toNat_or, BitVec.toNat_shiftLeft, BitVec.toNat_ushiftRight,
    Nat.or_mod_two_pow, Nat.mod_eq_of_lt right_lt]

/-- A whole number of turns is no rotation. -/
theorem rotl28_eq_self {r : Nat} (x : KeyHalf) (h : r % 28 = 0) : rotl28 x r = x := by
  rw [← rotl28_mod, h, rotl28_zero]

/-- Settles O31: the rotation is the pair of shifts, and the identity for a whole number of turns. -/
theorem rotationIsShiftPair : Obligations.RotationIsShiftPair :=
  fun x _ => ⟨rotl28_toNat x _, rotl28_eq_self x⟩

/-- The window is the 32 bytes from BASE on (20_memory.md R70, R74). -/
theorem inWindow_iff {base addr : Nat} : inWindow base addr = true ↔ base ≤ addr ∧ addr ≤ base + 0x1F := by
  simp only [inWindow, Bool.and_eq_true, decide_eq_true_eq]
  omega

/-- What a well-formed platform is (00_scope.md R14, R15; 60_exceptions.md R280). -/
theorem Platform.wf_iff {p : Platform} :
    p.wf = true ↔ p.fces ≠ [] ∧ (∀ u ∈ p.fces, u.base % 32 = 0) ∧ (p.fces.map Fce.base).Nodup := by
  simp [Platform.wf, and_assoc]

/-- An address in an aligned window gives the window's BASE: it is the address with its low five bits cleared. -/
theorem base_eq_of_inWindow {base addr : Nat} (aligned : base % 32 = 0) (h : inWindow base addr = true) :
    base = 32 * (addr / 32) := by
  rw [inWindow_iff] at h
  omega

/-- Instances of a well-formed platform with the same BASE have the same index. -/
theorem Platform.index_eq_of_base_eq {p : Platform} {m n : Nat} {u v : Fce} (hp : p.wf = true)
    (hu : p.fces[m]? = some u) (hv : p.fces[n]? = some v) (h : u.base = v.base) : m = n := by
  obtain ⟨-, -, nodup⟩ := Platform.wf_iff.1 hp
  have hm : m < (p.fces.map Fce.base).length := by
    simpa using (List.getElem?_eq_some_iff.1 hu).1
  exact (List.getElem?_inj hm nodup).1 (by simp [hu, hv, h])

/-- Settles O55: both windows hold the address, so their BASEs are the same, and no two instances share one. -/
theorem windowsAreDisjoint : Obligations.WindowsAreDisjoint := by
  intro p addr m n u v hp hu hv hau hav
  obtain ⟨-, aligned, -⟩ := Platform.wf_iff.1 hp
  have hbu : u.base = 32 * (addr / 32) := base_eq_of_inWindow (aligned u (List.mem_of_getElem? hu)) hau
  have hbv : v.base = 32 * (addr / 32) := base_eq_of_inWindow (aligned v (List.mem_of_getElem? hv)) hav
  exact Platform.index_eq_of_base_eq hp hu hv (hbu.trans hbv.symm)

/-- The CONFIG word depends on NR, ROT and SWAP_MODE alone (30_encoding.md R108). -/
theorem configView_default {s : State} (nr : s.build.nr = 10) (rot : s.build.rot = 1)
    (swap : s.build.swapMode = .decBracket) : configView s = 0x0000010A#32 := by
  rw [configView, nr, rot, swap]
  rfl

/-- Settles O2: the parameters are those of `Config.build`, and the open tables do not enter the CONFIG word. -/
theorem defaultBuildAtReset : Obligations.DefaultBuildAtReset :=
  ⟨rfl, rfl, rfl, rfl, configView_default rfl rfl rfl⟩

end Sys2Proof.Machine
end

section
/-!
PROOFS. The statements derived from 10_state.md: reset (R48), what an operation may change (R31 to R33, R47, R181), the
invariants of the scheduler and of a whole FCE (R45, R46, R196), and the state that never shows (R48, R49).

Two facts carry them: an operation other than ENC and DEC is one register update and one answer (`exec_access`), and a
command is an error code or exactly one finished state (`transform_error`, `transform_ok`).
-/

namespace Sys2Proof.Machine

/- ## The step, by the next input -/

theorem step_of_reset {s : State} {rest : List Input} (hp : s.pending = .reset :: rest) :
    step s = .next (applyReset { s with pending := rest }) := by
  simp [step, hp]

theorem step_of_access {s : State} {a : Access} {rest : List Input} (hp : s.pending = .access a :: rest)
    (idle : s.eng.phase = .idle) : step s = serveAccess a { s with pending := rest } := by
  simp [step, hp, idle]

theorem step_of_nothing {s : State} (hp : s.pending = []) (idle : s.eng.phase = .idle) : step s = .next s := by
  simp [step, hp, idle]

/- ## Reset -/

/-- The CONFIG word is a function of the build (30_encoding.md R108). -/
theorem configView_congr {s t : State} (h : s.build = t.build) : configView s = configView t := by
  simp only [configView, h]

/- The host-visible words of the reset state (70_reset_and_hazards.md R290). -/

theorem statusView_resetOf (b : Build) : statusView (State.resetOf b) = 0x00000000#32 := by
  simp [statusView, Scheduler.reset, KsState.code, KsDir.code, ErrCode.code]

theorem lenView_resetOf (b : Build) : lenView (State.resetOf b) = 0x00003840#32 := by
  rw [lenView, resetOf_len]
  rfl

theorem blkHiView_resetOf (b : Build) : blkHiView (State.resetOf b) = 0#32 := by
  simp [blkHiView, leftHalf]

theorem blkLoView_resetOf (b : Build) : blkLoView (State.resetOf b) = 0#32 := by
  simp [blkLoView, rightHalf]

theorem keyHiView_resetOf (b : Build) : keyHiView (State.resetOf b) = 0#32 := by
  simp [keyHiView]

theorem keyLoView_resetOf (b : Build) : keyLoView (State.resetOf b) = 0#32 := by
  simp [keyLoView]

theorem rdCmd_resetOf (b : Build) :
    exec .rdCmd (State.resetOf b) = .next { State.resetOf b with replies := [.data 0x00000000#32] } := rfl

/-- Settles O1: a reset ignores the engine's phase, and the reset state is a literal. -/
theorem resetInputGivesResetState : Obligations.ResetInputGivesResetState := by
  refine ⟨fun s rest hp => step_of_reset hp, fun b => ?_⟩
  have store : ∀ k ∈ (State.resetOf b).ks.sk, k = 0#32 := fun k hk => List.eq_of_mem_replicate hk
  have config : ∀ s : State, s.build = b → configView (State.resetOf b) = configView s :=
    fun s hs => configView_congr hs.symm
  have defaultConfig : b.nr = 10 → b.rot = 1 → b.swapMode = .decBracket →
      configView (State.resetOf b) = 0x0000010A#32 :=
    configView_default (s := State.resetOf b)
  exact ⟨rfl, rfl, rfl, rfl, rfl, rfl, rfl, rfl, rfl, rfl, rfl, List.length_replicate, store, rfl, rfl, rfl, rfl,
    statusView_resetOf b, lenView_resetOf b, blkHiView_resetOf b, blkLoView_resetOf b, keyHiView_resetOf b,
    keyLoView_resetOf b, rdCmd_resetOf b, config, defaultConfig⟩

/- ## The scheduler's invariants -/

theorem schedInv_reset (nr : Nat) : SchedInv nr (Scheduler.reset nr) where
  store := List.length_replicate
  bound := Nat.zero_le nr
  uninit _ := ⟨rfl, rfl⟩
  sched h := nomatch h
  exhausted h := nomatch h

/-- A load leaves SCHED with nothing taken; that is below NR because a build has at least one round (R9). -/
theorem schedInv_of_load {b : Build} {k : Key} {kbits : Byte} {ks : Scheduler} (rounds : 1 ≤ b.nr)
    (h : ksLoad b k kbits = .ok ks) : SchedInv b.nr ks := by
  obtain ⟨-, hsk, -, -, hstate, hdir, htaken⟩ := ksLoad_ok h
  exact
    { store := by simp [hsk]
      bound := by simp [htaken]
      uninit := by simp [hstate]
      sched := fun _ => ⟨by omega, by simp [hdir, htaken]⟩
      exhausted := by simp [hstate] }

/-- A retrieval leaves SCHED while subkeys are left and EXHAUSTED with the last, locked to its direction. -/
theorem schedInv_of_retrieval {nr : Nat} {d : Dir} {ks ks' : Scheduler} {k : Word} (inv : SchedInv nr ks)
    (h : ksNextIn nr d ks = .ok k ks') : SchedInv nr ks' := by
  obtain ⟨loaded, -, left, -, rfl⟩ := ksNextIn_ok h
  have below : ks.taken < nr := Nat.lt_of_le_of_ne inv.bound left
  have locked : d.ksDir = .enc ∨ d.ksDir = .dec := by cases d <;> simp [Dir.ksDir]
  have notNone : d.ksDir ≠ .none := by cases d <;> nofun
  by_cases last : ks.taken + 1 = nr
  · exact
      { store := inv.store
        bound := below
        uninit := by simp [last]
        sched := by simp [last]
        exhausted := fun _ => ⟨last, locked⟩ }
  · have notSpent : ks.state ≠ .exhausted := fun hs => left (inv.exhausted hs).1
    exact
      { store := inv.store
        bound := below
        uninit := by simp [last, loaded]
        sched := fun _ => ⟨Nat.lt_of_le_of_ne below last, by simp [notNone]⟩
        exhausted := by simp [last, notSpent] }

/-- Settles O14: the three operations one by one. -/
theorem schedulerInvariantKept : Obligations.SchedulerInvariantKept :=
  fun b rounds => ⟨schedInv_reset b.nr, fun _ _ _ h => schedInv_of_load rounds h,
    fun _ _ _ _ inv h => schedInv_of_retrieval inv h⟩

/-- A legal build has at least one round (00_scope.md R9). -/
theorem rounds_pos_of_wf {b : Build} (h : b.wf = true) : 1 ≤ b.nr := by
  simp only [Build.wf, Bool.and_eq_true, decide_eq_true_eq] at h
  omega

/-- The invariant after reset, the inputs still to come and the answers given being any. -/
theorem inv_applyReset {s : State} (h : s.build.wf = true) : (applyReset s).Inv where
  build := h
  ks := schedInv_reset s.build.nr
  notSched := nofun
  err := rfl
  idle := rfl
  round := Nat.zero_le _

theorem inv_resetOf {b : Build} (h : b.wf = true) : (State.resetOf b).Inv :=
  inv_applyReset (s := State.resetOf b) h

/-- The identity table is legal (00_scope.md R12). -/
theorem ptableOk_identityPtable : ptableOk identityPtable = true := by decide

/-- The default build's table is legal, whatever the free value is. -/
theorem ptableOk_ptable : ptableOk Config.ptable = true := by
  unfold Config.ptable
  split
  · assumption
  · exact ptableOk_identityPtable

theorem wf_defaultBuild : Config.build.wf = true := by
  simp [Build.wf, Config.build, ptableOk_ptable]

/-- Settles O13: the default build is a legal one. -/
theorem resetMeetsInvariant : Obligations.ResetMeetsInvariant :=
  ⟨fun _ h => inv_resetOf h, inv_resetOf wf_defaultBuild⟩

/- ## The operations other than ENC and DEC -/

/-- What an operation other than ENC and DEC leaves in the registers (43_engine_commands.md R221, R229,
R233 to R238). -/
def accessEffect (i : Instr) (s : State) : State :=
  match i with
  | .illegal _ => raiseErr .illegalCmd s
  | .wrLen v => setLen v s
  | .wrBlkHi v => setBlkHi v s
  | .wrBlkLo v => setBlkLo v s
  | .wrKeyHi v => setKeyHi v s
  | .wrKeyLo v => setKeyLo v s
  | _ => s

/-- What an operation other than ENC and DEC answers (43_engine_commands.md R239 to R244; 20_memory.md R73, R80). -/
def accessReply (i : Instr) (s : State) : Reply :=
  match i with
  | .rdCmd => .data 0#32
  | .rdStatus => .data (statusView s)
  | .rdConfig => .data (configView s)
  | .rdLen => .data (lenView s)
  | .rdBlkHi => .data (blkHiView s)
  | .rdBlkLo => .data (blkLoView s)
  | .rdKeyHi => .data (keyHiView s)
  | .rdKeyLo => .data (keyLoView s)
  | .busError _ _ _ => .busError
  | _ => .done

/-- An operation other than ENC and DEC is its effect and its answer. -/
theorem exec_access {i : Instr} (h : i.mayRun = false) (s : State) :
    exec i s = .next (answer (accessReply i s) (accessEffect i s)) := by
  cases i with
  | enc => cases h
  | dec => cases h
  | _ => rfl

/-- An operation is a command of the engine or not. -/
theorem mayRun_false_or_command (i : Instr) : i.mayRun = false ∨ ∃ d : Dir, i = d.command := by
  cases i with
  | enc => exact .inr ⟨.enc, rfl⟩
  | dec => exact .inr ⟨.dec, rfl⟩
  | _ => exact .inl rfl

@[simp] theorem accessEffect_build (i : Instr) (s : State) : (accessEffect i s).build = s.build := by cases i <;> rfl
@[simp] theorem accessEffect_ks (i : Instr) (s : State) : (accessEffect i s).ks = s.ks := by cases i <;> rfl
@[simp] theorem accessEffect_eng (i : Instr) (s : State) : (accessEffect i s).eng = s.eng := by cases i <;> rfl
@[simp] theorem accessEffect_pending (i : Instr) (s : State) : (accessEffect i s).pending = s.pending := by
  cases i <;> rfl
@[simp] theorem accessEffect_replies (i : Instr) (s : State) : (accessEffect i s).replies = s.replies := by
  cases i <;> rfl

theorem accessEffect_blk {i : Instr} (h : i.mayWriteBlk = false) (s : State) : (accessEffect i s).blk = s.blk := by
  cases i with
  | wrBlkHi _ => cases h
  | wrBlkLo _ => cases h
  | _ => rfl

theorem accessEffect_key {i : Instr} (h : i.mayWriteKey = false) (s : State) : (accessEffect i s).key = s.key := by
  cases i with
  | wrKeyHi _ => cases h
  | wrKeyLo _ => cases h
  | _ => rfl

theorem accessEffect_len {i : Instr} (h : i.mayWriteLen = false) (s : State) : (accessEffect i s).len = s.len := by
  cases i with
  | wrLen _ => cases h
  | _ => rfl

/-- Of these operations only an illegal command word writes ERR (43_engine_commands.md R229; 60_exceptions.md R265). -/
theorem accessEffect_err (i : Instr) (s : State) :
    (accessEffect i s).err = s.err ∨ i.mayWriteErr = true ∧ (accessEffect i s).err = .illegalCmd := by
  cases i with
  | illegal _ => exact .inr ⟨rfl, rfl⟩
  | _ => exact .inl rfl

/- ## ENC and DEC -/

theorem exec_command (d : Dir) (s : State) : exec d.command s = completeCommand (transform d s) := by
  cases d <;> rfl

/-- The checks raise no error but the two of R225. -/
theorem engBegin_error {d : Dir} {s : State} {e : ErrCode} (h : engBegin d s = .error e) :
    e = .blockLen ∨ e = .keyLen := by
  rcases engBegin_cases d s with ⟨-, hb⟩ | ⟨-, -, hb⟩ | ⟨-, -, ks, -, hb⟩ <;> rw [hb] at h <;> cases h
  · exact .inl rfl
  · exact .inr rfl

/-- Checks that pass have loaded the scheduler and started the round phase (43_engine_commands.md R224). -/
theorem engBegin_ok {d : Dir} {s s₀ : State} (h : engBegin d s = .ok s₀) :
    ∃ ks, ksLoad s.build s.key 56#8 = .ok ks ∧ s₀ = engStart d { s with ks := ks } := by
  rcases engBegin_cases d s with ⟨-, hb⟩ | ⟨-, -, hb⟩ | ⟨-, -, ks, hks, hb⟩ <;> rw [hb] at h <;> cases h
  exact ⟨ks, hks, rfl⟩

/-- `n` rounds from the middle of a command with that many subkeys left all succeed; they change the scheduler, the
working block and the round counter alone, and keep the scheduler's invariants (43_engine_commands.md R224, R228). -/
theorem engRounds_completes {n taken : Nat} {s : State} (mid : MidCommand s.build.nr s.eng.dir taken s.ks)
    (left : taken + n ≤ s.build.nr) :
    ∃ ks w, engRounds n s = .next { s with ks := ks, eng := { s.eng with w := w, round := s.eng.round + n } } ∧
      MidCommand s.build.nr s.eng.dir (taken + n) ks ∧ (SchedInv s.build.nr s.ks → SchedInv s.build.nr ks) := by
  induction n generalizing s taken with
  | zero => exact ⟨s.ks, s.eng.w, rfl, mid, id⟩
  | succ n ih =>
    obtain ⟨k, -, retrieved, mid'⟩ := mid.next (by omega)
    obtain ⟨ks, w, hrun, hmid, hinv⟩ :=
      ih (s := { s with
          ks := ksAdvance s.build.nr s.eng.dir.ksDir s.ks
          eng := { s.eng with w := roundFn s.build s.eng.w k, round := s.eng.round + 1 } })
        mid' (by simp only; omega)
    refine ⟨ks, w, ?_, ?_, fun inv => hinv (schedInv_of_retrieval inv retrieved)⟩
    · simpa only [engRounds, engRound_ok retrieved, Nat.add_assoc, Nat.add_comm 1 n] using hrun
    · rwa [show taken + (n + 1) = taken + 1 + n by omega]

/-- A command whose checks fail writes ERR and nothing else (43_engine_commands.md R225). -/
theorem transform_error {d : Dir} {s : State} {e : ErrCode} (h : engBegin d s = .error e) :
    transform d s = .next (raiseErr e s) := by
  simp [transform, h]

/-- A command whose checks pass completes: the result is in BLK, ERR is clear, the engine is idle after NR rounds and
the scheduler has delivered all its subkeys (43_engine_commands.md R224, R226, R227). -/
theorem transform_ok {d : Dir} {s s₀ : State} (h : engBegin d s = .ok s₀) :
    ∃ ks w, transform d s =
        .next { s with blk := w, err := .none, ks := ks, eng := ⟨.idle, d, s.build.nr, w⟩ } ∧
      MidCommand s.build.nr d s.build.nr ks ∧ (1 ≤ s.build.nr → SchedInv s.build.nr ks) := by
  obtain ⟨loaded, hload, rfl⟩ := engBegin_ok h
  obtain ⟨ks, w, hrun, mid, inv⟩ :=
    engRounds_completes (s := engStart d { s with ks := loaded }) (n := s.build.nr) (midCommand_of_load hload d)
      (by simp)
  refine ⟨ks, swapIf (swapsAfter s.build.swapMode d) w, ?_, by simpa using mid,
    fun rounds => inv (schedInv_of_load rounds hload)⟩
  simp [transform, h, hrun, engFinish]

/- ## Frames -/

/-- Settles O53: an access is its effect and its answer, a command its error code or its finished state. -/
theorem operationsKeepOtherState : Obligations.OperationsKeepOtherState := by
  intro i s t h
  rcases mayRun_false_or_command i with access | ⟨d, rfl⟩
  · rw [exec_access access] at h
    cases h
    refine ⟨by simp, by simp, fun hb => accessEffect_blk hb s, fun hk => accessEffect_key hk s,
      fun hl => accessEffect_len hl s, fun he => ?_, fun _ => by simp, accessReply i s, by simp⟩
    simpa [he] using accessEffect_err i s
  · have run : d.command.mayRun = true := by cases d <;> rfl
    have writesErr : d.command.mayWriteErr = true := by cases d <;> rfl
    have writesBlk : d.command.mayWriteBlk = true := by cases d <;> rfl
    rw [exec_command] at h
    obtain ⟨s', hs', rfl⟩ := completeCommand_cases h
    cases hb : engBegin d s with
    | error e =>
      rw [transform_error hb] at hs'
      cases hs'
      simp [run, writesErr, writesBlk]
    | ok s₀ =>
      obtain ⟨ks, w, hrun, -, -⟩ := transform_ok hb
      rw [hrun] at hs'
      cases hs'
      simp [run, writesErr, writesBlk]

/-- No micro-step of a running engine changes the build. -/
theorem microStep_build {s t : State} (h : microStep s = .next t) : t.build = s.build := by
  unfold microStep at h
  split at h
  · obtain ⟨k, ks, -, rfl⟩ := engRound_next h
    rfl
  · cases h
    rfl

/-- Settles O3: the five kinds of step. -/
theorem buildNeverChanges : Obligations.BuildNeverChanges := by
  intro s t h
  rcases step_cases s with
    ⟨rest, -, hs⟩ | ⟨-, -, hs⟩ | ⟨a, rest, -, -, -, hs⟩ | ⟨a, rest, -, -, -, hs⟩ | ⟨-, -, hs⟩ <;>
    rw [hs] at h
  · cases h
    rfl
  · exact microStep_build h
  · exact (operationsKeepOtherState _ _ _ h).1
  · cases h
  · cases h
    rfl

/- ## The invariant between two accesses -/

/-- No part of the invariant reads the inputs to come or the answers given. -/
theorem State.Inv.withPort {s : State} (inv : s.Inv) (pending : List Input) (replies : List Reply) :
    ({ s with pending := pending, replies := replies } : State).Inv :=
  ⟨inv.build, inv.ks, inv.notSched, inv.err, inv.idle, inv.round⟩

theorem State.Inv.accessEffect {s : State} (inv : s.Inv) (i : Instr) : (accessEffect i s).Inv where
  build := by simpa using inv.build
  ks := by simpa using inv.ks
  notSched := by simpa using inv.notSched
  err := by
    rcases accessEffect_err i s with kept | ⟨-, illegal⟩
    · rw [kept]
      exact inv.err
    · rw [illegal]
      rfl
  idle := by simpa using inv.idle
  round := by simpa using inv.round

/-- A command keeps the invariant: with all subkeys taken the scheduler is no longer in SCHED (42_key_scheduler.md
R196), and the two errors of the checks are visible ones (60_exceptions.md R267). -/
theorem State.Inv.transform {s t : State} {d : Dir} (inv : s.Inv) (h : transform d s = .next t) : t.Inv := by
  cases hb : engBegin d s with
  | error e =>
    rw [transform_error hb] at h
    cases h
    have visible : e.hostVisible = true := by rcases engBegin_error hb with rfl | rfl <;> rfl
    exact ⟨inv.build, inv.ks, inv.notSched, visible, inv.idle, inv.round⟩
  | ok s₀ =>
    obtain ⟨ks, w, hrun, spent, schedInv⟩ := transform_ok hb
    rw [hrun] at h
    cases h
    have ksInv : SchedInv s.build.nr ks := schedInv (rounds_pos_of_wf inv.build)
    have notSched : ks.state ≠ .sched := fun hs => (ksInv.sched hs).1.ne spent.taken
    exact ⟨inv.build, ksInv, notSched, rfl, rfl, Nat.le_refl _⟩

theorem State.Inv.exec {s t : State} {i : Instr} (inv : s.Inv) (h : exec i s = .next t) : t.Inv := by
  rcases mayRun_false_or_command i with access | ⟨d, rfl⟩
  · rw [exec_access access] at h
    cases h
    exact (inv.accessEffect i).withPort _ _
  · rw [exec_command] at h
    obtain ⟨s', hs', rfl⟩ := completeCommand_cases h
    exact (inv.transform hs').withPort _ _

/-- Settles O12: an FCE with the invariant is idle, so a step is a reset, an operation or nothing. -/
theorem stepKeepsInvariant : Obligations.StepKeepsInvariant := by
  intro s t inv h
  rcases step_cases s with
    ⟨rest, -, hs⟩ | ⟨-, running, -⟩ | ⟨a, rest, -, -, -, hs⟩ | ⟨a, rest, -, -, -, hs⟩ | ⟨-, -, hs⟩
  · rw [hs] at h
    cases h
    exact inv_applyReset inv.build
  · rw [inv.idle] at running
    cases running
  · rw [hs] at h
    exact (inv.withPort rest s.replies).exec h
  · rw [hs] at h
    cases h
  · rw [hs] at h
    cases h
    exact inv

/- ## Unobservable state -/

theorem ObsEq.refl (s : State) : ObsEq s s := ⟨rfl, rfl, rfl, rfl, rfl, rfl, rfl, rfl, rfl, rfl, rfl⟩

theorem ObsEq.answer {s t : State} (h : ObsEq s t) (r : Reply) : ObsEq (answer r s) (answer r t) :=
  { h with replies := by simp [h.replies] }

theorem ObsEq.raiseErr {s t : State} (h : ObsEq s t) (e : ErrCode) : ObsEq (raiseErr e s) (raiseErr e t) :=
  { h with err := rfl }

theorem ObsEq.withPending {s t : State} (h : ObsEq s t) (rest : List Input) :
    ObsEq { s with pending := rest } { t with pending := rest } :=
  { h with pending := rfl }

/-- A reset leaves nothing but the build and the port of the state before it. -/
theorem ObsEq.applyReset_eq {s t : State} (h : ObsEq s t) : applyReset s = applyReset t := by
  simp only [applyReset, h.build, h.pending, h.replies]

/-- Every answer is a function of what the host can observe. -/
theorem ObsEq.accessReply_eq {s t : State} (h : ObsEq s t) (i : Instr) : accessReply i s = accessReply i t := by
  cases i with
  | rdStatus => simp [accessReply, statusView, h.ksTaken, h.ksDir, h.ksState, h.err]
  | rdConfig => simp [accessReply, configView_congr h.build]
  | rdLen => simp [accessReply, lenView, h.len]
  | rdBlkHi => simp [accessReply, blkHiView, h.blk]
  | rdBlkLo => simp [accessReply, blkLoView, h.blk]
  | rdKeyHi => simp [accessReply, keyHiView, h.key]
  | rdKeyLo => simp [accessReply, keyLoView, h.key]
  | _ => rfl

theorem ObsEq.accessEffect {s t : State} (h : ObsEq s t) (i : Instr) : ObsEq (accessEffect i s) (accessEffect i t) := by
  cases i with
  | illegal _ => exact h.raiseErr .illegalCmd
  | wrLen v => exact { h with len := rfl }
  | wrBlkHi v => exact { h with blk := by simp [Machine.accessEffect, h.blk] }
  | wrBlkLo v => exact { h with blk := by simp [Machine.accessEffect, h.blk] }
  | wrKeyHi v => exact { h with key := by simp [Machine.accessEffect, h.key] }
  | wrKeyLo v => exact { h with key := by simp [Machine.accessEffect, h.key] }
  | _ => exact h

/-- The key idea: a command loads the scheduler and the engine anew from BLK, KEY, LEN and the build, so from two states
that look alike it begins with the same error or in the very same state. -/
theorem ObsEq.engBegin_eq {s t : State} (h : ObsEq s t) (d : Dir) : engBegin d s = engBegin d t := by
  simp only [engBegin, engStart, h.build, h.blk, h.key, h.len, h.err, h.pending, h.replies]

/-- Every operation completes from two idle states that look alike, with the same answer, in idle states that do. -/
theorem ObsEq.exec {s t : State} (h : ObsEq s t) (idle : s.eng.phase = .idle) (i : Instr) :
    ∃ s' t', exec i s = .next s' ∧ exec i t = .next t' ∧ ObsEq s' t' ∧ s'.eng.phase = .idle := by
  rcases mayRun_false_or_command i with access | ⟨d, rfl⟩
  · refine ⟨_, _, exec_access access s, exec_access access t, ?_, by simpa using idle⟩
    rw [h.accessReply_eq i]
    exact (h.accessEffect i).answer _
  · have same := h.engBegin_eq d
    rw [exec_command, exec_command]
    cases hb : engBegin d s with
    | error e =>
      rw [transform_error hb, transform_error (same ▸ hb)]
      exact ⟨_, _, rfl, rfl, (h.raiseErr e).answer .done, idle⟩
    | ok s₀ =>
      have sameResult : transform d s = transform d t := by
        simp only [transform, ← same, hb]
      obtain ⟨ks, w, hrun, -, -⟩ := transform_ok hb
      rw [← sameResult, hrun]
      exact ⟨_, _, rfl, rfl, ObsEq.refl _, rfl⟩

/-- One step from two idle states that look alike. -/
theorem ObsEq.step {s t : State} (h : ObsEq s t) (idle : s.eng.phase = .idle) :
    (∃ s' t', step s = .next s' ∧ step t = .next t' ∧ ObsEq s' t' ∧ s'.eng.phase = .idle) ∨
    (step s = .refused .busErrorAccess ∧ step t = .refused .busErrorAccess) := by
  have idle' : t.eng.phase = .idle := h.phase ▸ idle
  cases hp : s.pending with
  | nil => exact .inl ⟨s, t, step_of_nothing hp idle, step_of_nothing (h.pending ▸ hp) idle', h, idle⟩
  | cons i rest =>
    have hp' : t.pending = i :: rest := h.pending ▸ hp
    cases i with
    | reset =>
      refine .inl ⟨_, _, step_of_reset hp, step_of_reset hp', ?_, rfl⟩
      rw [(h.withPending rest).applyReset_eq]
      exact ObsEq.refl _
    | access a =>
      rw [step_of_access hp idle, step_of_access hp' idle']
      cases ha : accepted a.off a.size with
      | true =>
        rw [serveAccess_accepted ha, serveAccess_accepted ha]
        exact .inl ((h.withPending rest).exec idle (decode a))
      | false => exact .inr ⟨serveAccess_rejected ha _, serveAccess_rejected ha _⟩

/-- Settles O15: the step's simulation, by induction on the length of the run. -/
theorem unobservableStateNeverShows : Obligations.UnobservableStateNeverShows := by
  intro n
  induction n with
  | zero => exact fun s t h _ => .inl ⟨s, t, rfl, rfl, h⟩
  | succ n ih =>
    intro s t h idle
    rcases h.step idle with ⟨s', t', hs, ht, h', idle'⟩ | ⟨hs, ht⟩
    · simpa only [run_succ, hs, ht] using ih s' t' h' idle'
    · exact .inr ⟨by simp only [run_succ, hs], by simp only [run_succ, ht]⟩

end Sys2Proof.Machine
end

section
/-!
PROOFS. The statements derived from 20_memory.md: which operation an access is (R71 to R73), the step that serves it (R80),
reading back (R79, R110), side effects (R81), the end of a run at a rejected access (R73), the FCEs of a platform (R74,
R280), and the host's byte arrays (R78).

The two ENC of R81 need the exact result of a command: `transform_legal` holds the scheduler and the sequencer against the
closed form of the cipher, by the order in which a command takes the subkeys (`deliveryOrder`).
-/

namespace Sys2Proof

/- ## Accesses and their operations -/

/-- The register at an offset is the one whose offset it is (20_memory.md R71). -/
theorem Reg.off_eq_of_atOff {off : BitVec 5} {r : Reg} (h : Reg.atOff off = some r) : off = r.off := by
  revert off r; decide

theorem accepted_iff {off : BitVec 5} {size : Nat} : accepted off size = true ↔ size = 4 ∧ off.toNat % 4 = 0 := by
  simp [accepted]

theorem accepted_eq_false_iff {off : BitVec 5} {size : Nat} :
    accepted off size = false ↔ size ≠ 4 ∨ off.toNat % 4 ≠ 0 := by
  simp [accepted, imp_iff_not_or]

/-- An accepted access is a 32-bit access to a register. -/
theorem Access.eq_regAccess_of_accepted {a : Access} (h : accepted a.off a.size = true) :
    ∃ r : Reg, a = ⟨r.off, 4, a.dir⟩ := by
  obtain ⟨size, aligned⟩ := accepted_iff.1 h
  cases ho : Reg.atOff a.off with
  | none => exact absurd aligned ((Reg.atOff_eq_none _).1 ho)
  | some r => exact ⟨r, by rw [← Reg.off_eq_of_atOff ho, ← size]⟩

/-- The decoding of a command word, word by word (30_encoding.md R103). -/
theorem decodeCmd_cases (w : Word) :
    (w = 0#32 ∧ decodeCmd w = .nop) ∨ (w = 1#32 ∧ decodeCmd w = .enc) ∨ (w = 2#32 ∧ decodeCmd w = .dec) ∨
      (legalCmdWord w = false ∧ decodeCmd w = .illegal w) := by
  by_cases h0 : w = 0#32
  · exact .inl ⟨h0, by rw [h0]; rfl⟩
  by_cases h1 : w = 1#32
  · exact .inr (.inl ⟨h1, by rw [h1]; rfl⟩)
  by_cases h2 : w = 2#32
  · exact .inr (.inr (.inl ⟨h2, by rw [h2]; rfl⟩))
  refine .inr (.inr (.inr ⟨by simp [legalCmdWord, h0, h1, h2], ?_⟩))
  by_cases high : w.extractLsb' 4 28 = 0#28
  · have word : 0#28 ++ w.extractLsb' 0 4 = w := high ▸ BitVec.extractLsb'_append_extractLsb'
    have low_ne (c : BitVec 4) (hc : w ≠ 0#28 ++ c) : (w.extractLsb' 0 4).toNat ≠ c.toNat := fun h =>
      hc (by rw [← BitVec.eq_of_toNat_eq h, word])
    rw [decodeCmd, if_neg (not_not.2 high)]
    split
    · exact absurd ‹_› (low_ne 0#4 h0)
    · exact absurd ‹_› (low_ne 1#4 h1)
    · exact absurd ‹_› (low_ne 2#4 h2)
    · rfl
  · simp [decodeCmd, high]

/-- Every access to a register decodes to a well-formed operation whose transaction it is (30_encoding.md R113). -/
theorem decodeReg_spec (r : Reg) (d : BusDir) :
    (decodeReg r d).wf = true ∧ encode (decodeReg r d) = ⟨r.off, 4, d⟩ := by
  cases d with
  | read => cases r <;> exact ⟨rfl, rfl⟩
  | write w =>
    cases r with
    | cmd =>
      rw [decodeReg]
      rcases decodeCmd_cases w with ⟨rfl, h⟩ | ⟨rfl, h⟩ | ⟨rfl, h⟩ | ⟨illegal, h⟩ <;> rw [h]
      · exact ⟨rfl, rfl⟩
      · exact ⟨rfl, rfl⟩
      · exact ⟨rfl, rfl⟩
      · exact ⟨by simp [Instr.wf, illegal], rfl⟩
    | _ => exact ⟨rfl, rfl⟩

/-- Settles O5: an accepted access is one to a register, and any other is its own BUS_ERROR. -/
theorem encodeOfDecode : Obligations.EncodeOfDecode := by
  intro a
  cases ha : accepted a.off a.size with
  | true =>
    obtain ⟨r, hr⟩ := Access.eq_regAccess_of_accepted ha
    rw [hr, decode_regAccess]
    exact decodeReg_spec r a.dir
  | false =>
    rw [decode_rejected ha]
    exact ⟨by simp [Instr.wf, ha], rfl⟩

/-- Settles O7: the decoder computes each of them. -/
theorem sampleTransactionsDecode : Obligations.SampleTransactionsDecode :=
  ⟨rfl, rfl, rfl, rfl, rfl, rfl⟩

/-- An accepted access is no BUS_ERROR (20_memory.md R72, R73). -/
theorem decode_ne_busError {a : Access} (h : accepted a.off a.size = true) (off : BitVec 5) (size : Nat) (d : BusDir) :
    decode a ≠ .busError off size d := by
  intro hb
  obtain ⟨wf, enc⟩ := encodeOfDecode a
  rw [hb] at wf enc
  rw [← enc] at h
  have rejected : accepted off size = false := by simpa [Instr.wf] using wf
  cases rejected.symm.trans h

end Sys2Proof

namespace Sys2Proof.Machine

/- ## The step -/

/-- Settles O50: such an access is a BUS_ERROR, whose meaning is the answer alone. -/
theorem busErrorChangesNothing : Obligations.BusErrorChangesNothing := by
  refine ⟨fun a s h => ?_, fun _ _ _ _ => rfl⟩
  rw [decode_rejected (accepted_eq_false_iff.2 h)]
  rfl

/-- Settles O9: an idle step serves the access; `withFetchWord` puts an accepted one first. -/
theorem stepRunsDecodedAccess : Obligations.StepRunsDecodedAccess := by
  refine ⟨fun s a rest hp idle => ?_, fun s w hw => ?_⟩
  · rw [step_of_access hp idle]
    exact ⟨fun ha => serveAccess_accepted ha _, fun ha => serveAccess_rejected ha _⟩
  · have hp : (s.withFetchWord 32 w).pending = .access (cmdWrite (BitVec.ofNat 32 w)) :: s.pending := by
      rw [State.withFetchWord, Nat.mod_eq_of_lt hw]
    rw [step_of_access hp rfl, serveAccess_accepted rfl]
    rfl

/-- A running engine that is not reset makes a micro-step (43_engine_commands.md R224). -/
theorem step_of_run {s : State} (noReset : s.pending.head? ≠ some .reset) (running : s.eng.phase = .run) :
    step s = microStep s := by
  rcases step_cases s with ⟨rest, hp, -⟩ | ⟨-, -, hs⟩ | ⟨_, _, -, idle, -⟩ | ⟨_, _, -, idle, -⟩ | ⟨-, idle, -⟩
  · simp [hp] at noReset
  · exact hs
  all_goals
    rw [running] at idle
    cases idle

/-- Settles O10: the two kinds of step that serve no access. -/
theorem idleOrBusyStep : Obligations.IdleOrBusyStep :=
  ⟨fun _ hp idle => step_of_nothing hp idle, fun _ noReset running => step_of_run noReset running⟩

/- ## Reading back what was written -/

/-- The low bits of a word, extended again, are the word under a mask. -/
theorem setWidth_extractLsb'_eq_and (v : Word) (n : Nat) :
    (v.extractLsb' 0 n).setWidth 32 = v &&& (BitVec.allOnes n).setWidth 32 := by
  ext i hi
  simp [hi, Bool.and_comm]

/- The view of a register after a write to it (20_memory.md R76, R77; 30_encoding.md R110). -/

theorem blkHiView_setBlkHi (v : Word) (s : State) : blkHiView (setBlkHi v s) = v := leftHalf_joinHalves v _

theorem blkLoView_setBlkLo (v : Word) (s : State) : blkLoView (setBlkLo v s) = v := rightHalf_joinHalves _ v

theorem keyHiView_setKeyHi (v : Word) (s : State) : keyHiView (setKeyHi v s) = v &&& 0x00FFFFFF#32 := by
  rw [keyHiView, setKeyHi_key, BitVec.extractLsb'_append_eq_left]
  exact setWidth_extractLsb'_eq_and v 24

theorem keyLoView_setKeyLo (v : Word) (s : State) : keyLoView (setKeyLo v s) = v :=
  BitVec.extractLsb'_append_eq_right

theorem lenView_setLen (v : Word) (s : State) : lenView (setLen v s) = v &&& 0x0000FFFF#32 := by
  have low : v.extractLsb' 8 8 ++ v.extractLsb' 0 8 = v.extractLsb' 0 16 :=
    BitVec.extractLsb'_append_extractLsb'_eq_extractLsb' rfl
  simp only [lenView, setLen_len, low]
  exact setWidth_extractLsb'_eq_and v 16

theorem accessReply_answer (i : Instr) (r : Reply) (s : State) : accessReply i (answer r s) = accessReply i s := by
  cases i <;> rfl

theorem accessEffect_answer (i : Instr) (r : Reply) (s : State) :
    accessEffect i (answer r s) = answer r (accessEffect i s) := by
  cases i <;> rfl

/-- What an operation `j` answers right after an operation `i`, neither of them ENC or DEC. -/
theorem exec_access_then {i j : Instr} (hi : i.mayRun = false) (hj : j.mayRun = false) (s : State) :
    ∃ t u, exec i s = .next t ∧ exec j t = .next u ∧
      u.replies = s.replies ++ [accessReply i s, accessReply j (accessEffect i s)] :=
  ⟨_, _, exec_access hi s, exec_access hj _, by simp [accessReply_answer]⟩

/-- Settles O48: each read answers the view of what the write stored. -/
theorem writesReadBack : Obligations.WritesReadBack := by
  intro s v
  refine ⟨?_, ?_, ?_, ?_, ?_⟩
  · simpa only [accessReply, accessEffect, lenView_setLen] using
      exec_access_then (i := .wrLen v) (j := .rdLen) rfl rfl s
  · simpa only [accessReply, accessEffect, blkHiView_setBlkHi] using
      exec_access_then (i := .wrBlkHi v) (j := .rdBlkHi) rfl rfl s
  · simpa only [accessReply, accessEffect, blkLoView_setBlkLo] using
      exec_access_then (i := .wrBlkLo v) (j := .rdBlkLo) rfl rfl s
  · simpa only [accessReply, accessEffect, keyHiView_setKeyHi] using
      exec_access_then (i := .wrKeyHi v) (j := .rdKeyHi) rfl rfl s
  · simpa only [accessReply, accessEffect, keyLoView_setKeyLo] using
      exec_access_then (i := .wrKeyLo v) (j := .rdKeyLo) rfl rfl s

/- ## Commands in closed form -/

/-- The loop of KS_LOAD in closed form (42_key_scheduler.md R185). -/
theorem ksGenerate_eq (rot n : Nat) (l r : KeyHalf) :
    ksGenerate rot n l r =
      (rotl28 l (n * rot), rotl28 r (n * rot),
        (List.range n).map fun j => firstBits (joinKey (rotl28 l ((j + 1) * rot)) (rotl28 r ((j + 1) * rot)))) := by
  induction n generalizing l r with
  | zero => simp [ksGenerate]
  | succ n ih =>
    have turn (m : Nat) : rot + m * rot = (m + 1) * rot := by rw [Nat.succ_mul, Nat.add_comm]
    simp [ksGenerate, ksNext, ih, rotl28_rotl28, turn, List.range_succ_eq_map, Function.comp_def]

/-- The scheduler right after a load: the subkeys of the closed form, none of them taken (42_key_scheduler.md R184,
R185). -/
def cipherLoaded (b : Build) (k : Key) : Scheduler where
  l := rotl28 (keyLeft k) (b.nr * b.rot)
  r := rotl28 (keyRight k) (b.nr * b.rot)
  sk := cipherSubkeys b k
  state := .sched
  dir := .none
  taken := 0

theorem ksLoad_eq (b : Build) (k : Key) : ksLoad b k 56#8 = .ok (cipherLoaded b k) := by
  simp only [ksLoad, ksGenerate_eq]
  rfl

/-- The subkeys of a store in the order in which a command takes them (42_key_scheduler.md R188, R189). -/
def deliveryOrder (d : Dir) (sk : List Word) : List Word :=
  match d with
  | .enc => sk
  | .dec => sk.reverse

@[simp] theorem deliveryOrder_length (d : Dir) (sk : List Word) : (deliveryOrder d sk).length = sk.length := by
  cases d with
  | enc => rfl
  | dec => exact List.length_reverse

/-- The next subkey of a command is the next one of its delivery order. -/
theorem MidCommand.deliveryOrder_getElem? {nr n : Nat} {d : Dir} {ks : Scheduler} (mid : MidCommand nr d n ks)
    (left : n < nr) : (deliveryOrder d ks.sk)[n]? = ks.sk[ksIndex nr d ks]? := by
  cases d with
  | enc => simp [deliveryOrder, ksIndex, mid.taken]
  | dec => simp [deliveryOrder, ksIndex, mid.taken, mid.store, left]

/-- The scheduler after the last retrieval of a command (42_key_scheduler.md R188, R189, R196). -/
def Scheduler.spent (nr : Nat) (d : Dir) (ks : Scheduler) : Scheduler :=
  { ks with state := .exhausted, dir := d.ksDir, taken := nr }

/-- A round in the middle of a command applies the next subkey of the delivery order. -/
theorem engRound_mid {taken : Nat} {s : State} (mid : MidCommand s.build.nr s.eng.dir taken s.ks)
    (left : taken < s.build.nr) :
    ∃ k, (deliveryOrder s.eng.dir s.ks.sk).drop taken = k :: (deliveryOrder s.eng.dir s.ks.sk).drop (taken + 1) ∧
      engRound s = .next
        { s with
          ks := ksAdvance s.build.nr s.eng.dir.ksDir s.ks
          eng := { s.eng with w := roundFn s.build s.eng.w k, round := s.eng.round + 1 } } ∧
      MidCommand s.build.nr s.eng.dir (taken + 1) (ksAdvance s.build.nr s.eng.dir.ksDir s.ks) := by
  obtain ⟨k, stored, retrieved, mid'⟩ := mid.next left
  rw [← mid.deliveryOrder_getElem? left] at stored
  obtain ⟨inStore, hk⟩ := List.getElem?_eq_some_iff.1 stored
  exact ⟨k, by rw [List.drop_eq_getElem_cons inStore, hk], engRound_ok retrieved, mid'⟩

/-- The rounds that are left, from the middle of a command on: each subkey left is applied once, in the delivery
order, and the scheduler is spent (43_engine_commands.md R224, R226). -/
theorem engRounds_left {n taken : Nat} {s : State} (mid : MidCommand s.build.nr s.eng.dir taken s.ks) (pos : 0 < n)
    (left : taken + n = s.build.nr) :
    engRounds n s = .next
      { s with
        ks := s.ks.spent s.build.nr s.eng.dir
        eng := { s.eng with
          w := cipherRounds s.build ((deliveryOrder s.eng.dir s.ks.sk).drop taken) s.eng.w
          round := s.eng.round + n } } := by
  induction n generalizing taken s with
  | zero => cases pos
  | succ n ih =>
    obtain ⟨k, order, round, mid'⟩ := engRound_mid mid (by omega)
    rw [engRounds, round, order]
    rcases Nat.eq_zero_or_pos n with rfl | more
    · have last : (deliveryOrder s.eng.dir s.ks.sk).drop (taken + 1) = [] :=
        List.drop_eq_nil_of_le (by simp [mid.store, ← left])
      have spent : ksAdvance s.build.nr s.eng.dir.ksDir s.ks = s.ks.spent s.build.nr s.eng.dir := by
        simp [ksAdvance, Scheduler.spent, mid.taken, left]
      rw [last, spent]
      rfl
    · refine (ih mid' more (by simp only; omega)).trans ?_
      simp [cipherRounds, Scheduler.spent, Nat.add_assoc, Nat.add_comm 1]

/-- The closed form of a command's result: the rounds in the delivery order, between the swaps of SWAP_MODE
(41_round_function.md R166). -/
theorem swapIf_cipherRounds (d : Dir) (b : Build) (k : Key) (blk : Block) :
    swapIf (swapsAfter b.swapMode d)
        (cipherRounds b (deliveryOrder d (cipherSubkeys b k)) (swapIf (swapsBefore b.swapMode d) blk)) =
      cipherIn d b k blk := by
  cases d <;> cases h : b.swapMode <;>
    simp [swapIf, swapsAfter, swapsBefore, deliveryOrder, cipherIn, cipherEnc, cipherDec, h]

@[simp] theorem cipherLoaded_sk (b : Build) (k : Key) : (cipherLoaded b k).sk = cipherSubkeys b k := rfl

theorem spent_cipherLoaded (d : Dir) (b : Build) (k : Key) : (cipherLoaded b k).spent b.nr d = cipherSpent d b k := by
  cases d <;> rfl

theorem engBegin_legal {s : State} (legal : s.lenLegal = true) (d : Dir) :
    engBegin d s = .ok (engStart d { s with ks := cipherLoaded s.build s.key }) := by
  obtain ⟨blkBits, keyBits⟩ := (lenLegal_iff s).1 legal
  simp [engBegin, blkBits, keyBits, ksLoad_eq]

/-- A legal command is the cipher's closed form (43_engine_commands.md R222, R223, R227). -/
theorem transform_legal {s : State} (rounds : 1 ≤ s.build.nr) (legal : s.lenLegal = true) (d : Dir) :
    transform d s = .next
      { s with
        blk := cipherIn d s.build s.key s.blk
        err := .none
        ks := cipherSpent d s.build s.key
        eng := ⟨.idle, d, s.build.nr, cipherIn d s.build s.key s.blk⟩ } := by
  have run := engRounds_left (s := engStart d { s with ks := cipherLoaded s.build s.key })
    (midCommand_of_load (ksLoad_eq s.build s.key) d) rounds (Nat.zero_add _)
  simp only [transform, engBegin_legal legal, engStart_build, run]
  simp [engFinish, spent_cipherLoaded, swapIf_cipherRounds]

/-- ENC and DEC of a legal build with a legal LEN, as the host sees them: `E` or `D` of BLK. -/
theorem exec_legalCommand {s : State} (build : s.build.wf = true) (legal : s.lenLegal = true) (d : Dir) :
    ∃ t, exec d.command s = .next t ∧ t.blk = cipherIn d s.build s.key s.blk ∧
      t.build = s.build ∧ t.key = s.key ∧ t.len = s.len := by
  rw [exec_command, transform_legal (rounds_pos_of_wf build) legal d]
  exact ⟨_, rfl, rfl, rfl, rfl, rfl⟩

/- ## Side effects -/

/-- A read has no effect, and answers a word (20_memory.md R81). -/
theorem exec_read {i : Instr} (h : i.isRead = true) (s : State) :
    ∃ w, exec i s = .next { s with replies := s.replies ++ [.data w] } := by
  cases i with
  | rdCmd | rdStatus | rdConfig | rdLen | rdBlkHi | rdBlkLo | rdKeyHi | rdKeyLo => exact ⟨_, rfl⟩
  | _ => cases h

/-- To write a register again with the same word changes nothing more (20_memory.md R81). -/
theorem accessEffect_accessEffect (i : Instr) (s : State) : accessEffect i (accessEffect i s) = accessEffect i s := by
  cases i with
  | wrBlkHi v => simp [accessEffect, setBlkHi]
  | wrBlkLo v => simp [accessEffect, setBlkLo]
  | wrKeyHi v => simp only [accessEffect, setKeyHi, BitVec.extractLsb'_append_eq_right]
  | wrKeyLo v => simp only [accessEffect, setKeyLo, BitVec.extractLsb'_append_eq_left]
  | _ => rfl

/-- A register write is its effect and its completion. -/
theorem exec_regWrite {i : Instr} (h : i.isRegWrite = true) (s : State) :
    exec i s = .next (answer .done (accessEffect i s)) := by
  cases i with
  | wrStatus _ | wrConfig _ | wrLen _ | wrBlkHi _ | wrBlkLo _ | wrKeyHi _ | wrKeyLo _ => rfl
  | _ => cases h

theorem exec_regWrite_twice {i : Instr} (h : i.isRegWrite = true) (s : State) :
    ∃ t, exec i s = .next t ∧ exec i t = .next { t with replies := t.replies ++ [.done] } := by
  refine ⟨_, exec_regWrite h s, ?_⟩
  rw [exec_regWrite h, accessEffect_answer, accessEffect_accessEffect]
  rfl

theorem exec_enc_twice {s : State} (build : s.build.wf = true) (legal : s.lenLegal = true) :
    ∃ t u, exec .enc s = .next t ∧ exec .enc t = .next u ∧
      u.blk = cipherEnc s.build s.key (cipherEnc s.build s.key s.blk) ∧ u.key = s.key ∧ u.len = s.len := by
  obtain ⟨t, ht, blk, sameBuild, key, len⟩ := exec_legalCommand build legal .enc
  obtain ⟨u, hu, blk', -, key', len'⟩ :=
    exec_legalCommand (s := t) (sameBuild ▸ build) (by rwa [State.lenLegal, len]) .enc
  refine ⟨t, u, ht, hu, ?_, key'.trans key, len'.trans len⟩
  rw [blk', sameBuild, key, blk]
  rfl

/-- Settles O49: the two kinds of access from their effects, the two commands from the closed form. -/
theorem accessSideEffects : Obligations.AccessSideEffects :=
  ⟨fun _ s h => exec_read h s, fun _ s h => exec_regWrite_twice h s, fun _ build legal => exec_enc_twice build legal⟩

/- ## Runs -/

/-- Every operation of an idle FCE completes in an idle state, and takes no further input (60_exceptions.md R267). -/
theorem exec_completes {s : State} (idle : s.eng.phase = .idle) (i : Instr) :
    ∃ t, exec i s = .next t ∧ t.eng.phase = .idle ∧ t.pending = s.pending := by
  obtain ⟨t, -, ht, -, -, idle'⟩ := (ObsEq.refl s).exec idle i
  obtain ⟨-, pending, -⟩ := operationsKeepOtherState i s t ht
  exact ⟨t, ht, idle', pending⟩

/-- An idle FCE serves an accepted access, and goes on with the inputs after it. -/
theorem step_of_accepted {s : State} {a : Access} {rest : List Input} (hp : s.pending = .access a :: rest)
    (idle : s.eng.phase = .idle) (ha : accepted a.off a.size = true) :
    ∃ t, step s = .next t ∧ t.eng.phase = .idle ∧ t.pending = rest := by
  rw [step_of_access hp idle, serveAccess_accepted ha]
  exact exec_completes (s := { s with pending := rest }) idle (decode a)

/-- A run past accepted accesses to one that is not is refused there. -/
theorem run_refused {good : List Access} {bad : Access} {rest : List Input} {s : State} {n : Nat}
    (idle : s.eng.phase = .idle) (hp : s.pending = good.map Input.access ++ .access bad :: rest)
    (hgood : ∀ a ∈ good, accepted a.off a.size = true) (hbad : accepted bad.off bad.size = false)
    (long : good.length < n) : run n s = .refused .busErrorAccess := by
  induction good generalizing s n with
  | nil =>
    obtain ⟨n, rfl⟩ := Nat.exists_eq_add_one.2 long
    rw [run_succ, step_of_access hp idle, serveAccess_rejected hbad]
  | cons a good ih =>
    obtain ⟨n, rfl⟩ := Nat.exists_eq_add_one.2 (Nat.zero_lt_of_lt long)
    obtain ⟨ha, hgood⟩ := List.forall_mem_cons.1 hgood
    obtain ⟨t, hs, idle', hp'⟩ := step_of_accepted hp idle ha
    rw [run_succ, hs]
    exact ih idle' hp' hgood (Nat.lt_of_succ_lt_succ long)

/-- A command gives no answer of its own: the CMD write completes after it (20_memory.md R80). -/
theorem transform_replies {d : Dir} {s t : State} (h : transform d s = .next t) : t.replies = s.replies := by
  cases hb : engBegin d s with
  | error e =>
    rw [transform_error hb] at h
    cases h
    rfl
  | ok s₀ =>
    obtain ⟨ks, w, hrun, -, -⟩ := transform_ok hb
    rw [hrun] at h
    cases h
    rfl

/-- Only BUS_ERROR answers a BusError (20_memory.md R73). -/
theorem exec_reply {i : Instr} {s t : State} (h : exec i s = .next t) (hi : ∀ off size d, i ≠ .busError off size d) :
    ∃ r, r ≠ .busError ∧ t.replies = s.replies ++ [r] := by
  rcases mayRun_false_or_command i with access | ⟨d, rfl⟩
  · rw [exec_access access] at h
    cases h
    refine ⟨accessReply i s, ?_, by simp⟩
    cases i with
    | busError off size d => exact absurd rfl (hi off size d)
    | _ => nofun
  · rw [exec_command] at h
    obtain ⟨s', hs', rfl⟩ := completeCommand_cases h
    exact ⟨.done, nofun, by rw [transform_replies hs']⟩

/-- A micro-step answers nothing, or the completion of the CMD write. -/
theorem microStep_replies {s t : State} (h : microStep s = .next t) :
    t.replies = s.replies ∨ t.replies = s.replies ++ [.done] := by
  unfold microStep at h
  split at h
  · obtain ⟨k, ks, -, rfl⟩ := engRound_next h
    exact .inl rfl
  · cases h
    exact .inr rfl

/-- A step adds at most one answer, and no BusError. -/
theorem step_replies {s t : State} (h : step s = .next t) :
    t.replies = s.replies ∨ ∃ r, r ≠ .busError ∧ t.replies = s.replies ++ [r] := by
  rcases step_cases s with
    ⟨rest, -, hs⟩ | ⟨-, -, hs⟩ | ⟨a, rest, -, -, ha, hs⟩ | ⟨a, rest, -, -, -, hs⟩ | ⟨-, -, hs⟩ <;>
    rw [hs] at h
  · cases h
    exact .inl rfl
  · exact (microStep_replies h).imp_right fun hr => ⟨.done, nofun, hr⟩
  · exact .inr (exec_reply (s := { s with pending := rest }) h (decode_ne_busError ha))
  · cases h
  · cases h
    exact .inl rfl

/-- Settles O51: the accepted accesses are served one by one, and the rejected one is refused. -/
theorem rejectedAccessEndsTheRun : Obligations.RejectedAccessEndsTheRun := by
  refine ⟨fun good bad rest s n idle hp hgood hbad long =>
    run_refused idle hp (fun a ha => accepted_iff.2 (hgood a ha)) (accepted_eq_false_iff.2 hbad) long,
    fun s t hs h => ?_⟩
  rcases step_replies h with hr | ⟨r, hne, hr⟩
  · simpa [State.noBusError, hr] using hs
  · simpa [State.noBusError, hr, hne.symm] using hs

/- ## Platforms -/

/-- Every input but a refused access is served by an idle FCE, which is idle again after it. -/
theorem offer_completes {s : State} {input : Input} (idle : s.eng.phase = .idle) (h : input.accepted = true) :
    ∃ t, offer input s = .next t ∧ t.eng.phase = .idle := by
  cases input with
  | reset => exact ⟨_, step_of_reset rfl, rfl⟩
  | access a =>
    obtain ⟨t, ht, idle', -⟩ := step_of_accepted (s := { s with pending := .access a :: s.pending }) rfl idle h
    exact ⟨t, ht, idle'⟩

/-- What the service of an input leaves of the FCE at index `n`: `v` is `u` where the input does not reach it, and
`u` after a step of its own where it does (60_exceptions.md R280). -/
def ServedAs (i : HostInput) (n : Nat) (u v : Fce) : Prop :=
  (inputFor i n u = none → v = u) ∧
    ∀ input, inputFor i n u = some input → ∃ s, offer input u.state = .next s ∧ v = { u with state := s }

/-- The service of an input serves the FCEs one by one. -/
theorem serveAll_cons {i : HostInput} {n : Nat} {u : Fce} {us vs : List Fce} :
    serveAll i n (u :: us) = .next vs ↔
      ∃ v us', vs = v :: us' ∧ serveAll i (n + 1) us = .next us' ∧ ServedAs i n u v := by
  rw [serveAll]
  cases hrest : serveAll i (n + 1) us with
  | fault r => simp
  | refused r => simp
  | next us' =>
    cases hi : inputFor i n u with
    | none => simp [ServedAs, hi, eq_comm]
    | some input =>
      cases ho : offer input u.state <;> simp [ServedAs, hi, ho, eq_comm]

/-- An idle FCE that would not refuse what reaches it is served, and idle again. -/
theorem servedAs_completes {i : HostInput} {n : Nat} {u : Fce} (idle : u.state.eng.phase = .idle)
    (ok : ∀ input, inputFor i n u = some input → input.accepted = true) :
    ∃ v, ServedAs i n u v ∧ v.state.eng.phase = .idle := by
  cases hi : inputFor i n u with
  | none => exact ⟨u, ⟨fun _ => rfl, by simp [hi]⟩, idle⟩
  | some input =>
    obtain ⟨s, hs, idle'⟩ := offer_completes idle (ok input hi)
    exact ⟨{ u with state := s }, ⟨by simp [hi], by simp [hi, hs]⟩, idle'⟩

theorem serveAll_completes {i : HostInput} {n : Nat} {us : List Fce} (idle : ∀ u ∈ us, u.state.eng.phase = .idle)
    (ok : ∀ (m : Nat) (u : Fce), us[m]? = some u → ∀ input, inputFor i (n + m) u = some input → input.accepted = true) :
    ∃ vs, serveAll i n us = .next vs ∧ ∀ v ∈ vs, v.state.eng.phase = .idle := by
  induction us generalizing n with
  | nil => exact ⟨[], rfl, nofun⟩
  | cons u us ih =>
    obtain ⟨idleHead, idleTail⟩ := List.forall_mem_cons.1 idle
    obtain ⟨v, hv, idleV⟩ := servedAs_completes idleHead (ok 0 u rfl)
    obtain ⟨vs, hvs, idleVs⟩ := ih (n := n + 1) idleTail fun m w hw =>
      Nat.add_right_comm n 1 m ▸ ok (m + 1) w hw
    exact ⟨v :: vs, serveAll_cons.2 ⟨v, vs, rfl, hvs, hv⟩, List.forall_mem_cons.2 ⟨idleV, idleVs⟩⟩

/-- The service of an input serves the FCE at every index, and adds and drops none. -/
theorem serveAll_next {i : HostInput} {n : Nat} {us vs : List Fce} (h : serveAll i n us = .next vs) :
    vs.length = us.length ∧
      ∀ (m : Nat) (u : Fce), us[m]? = some u → ∃ v, vs[m]? = some v ∧ ServedAs i (n + m) u v := by
  induction us generalizing n vs with
  | nil =>
    cases h
    exact ⟨rfl, nofun⟩
  | cons u us ih =>
    obtain ⟨v, us', rfl, hus', hv⟩ := serveAll_cons.1 h
    obtain ⟨hlen, hall⟩ := ih hus'
    refine ⟨by simp [hlen], fun m w hw => ?_⟩
    cases m with
    | zero =>
      cases hw
      exact ⟨v, rfl, hv⟩
    | succ m =>
      obtain ⟨x, hx, served⟩ := hall m w hw
      exact ⟨x, hx, Nat.add_right_comm n 1 m ▸ served⟩

/-- A platform's step with an input is its service by the FCEs. -/
theorem Platform.step_next {p q : Platform} {i : HostInput} {rest : List HostInput} (hp : p.pending = i :: rest) :
    p.step = .next q ↔ serveAll i 0 p.fces = .next q.fces ∧ q.pending = rest := by
  obtain ⟨fces, pending⟩ := q
  unfold Platform.step
  rw [hp]
  cases h : serveAll i 0 p.fces <;> simp [h, eq_comm]

/-- Settles O54: the FCEs are served one by one, each from its own state. -/
theorem fcesAreIndependent : Obligations.FcesAreIndependent := by
  refine ⟨fun p idle ok => ?_, fun p q i rest hp hstep => ?_⟩
  · cases hp : p.pending with
    | nil => exact ⟨p, by simp [Platform.step, hp], idle⟩
    | cons i rest =>
      obtain ⟨vs, hvs, idle'⟩ := serveAll_completes (n := 0) idle fun m u hu => by
        simpa using ok i rest hp m u hu
      exact ⟨⟨vs, rest⟩, (Platform.step_next hp).2 ⟨hvs, rfl⟩, idle'⟩
  · obtain ⟨hserve, hrest⟩ := (Platform.step_next hp).1 hstep
    obtain ⟨hlen, hall⟩ := serveAll_next hserve
    refine ⟨hrest, hlen, fun n u hu => ?_⟩
    obtain ⟨v, hv, kept, stepped⟩ := hall n u hu
    rw [Nat.zero_add] at kept stepped
    refine ⟨fun hi => by rw [hv, kept hi], fun input hi => ?_⟩
    obtain ⟨s, hs, rfl⟩ := stepped input hi
    exact ⟨s, hs, hv⟩

/- ## Byte arrays -/

theorem blockOfBytes_blockToBytes (b : Block) : blockOfBytes (blockToBytes b) = b := by
  simp only [blockOfBytes, blockToBytes, blockByte, Vector.getElem_ofFn]
  iterate 7 rw [BitVec.extractLsb'_append_extractLsb'_eq_extractLsb']
  exact BitVec.extractLsb'_eq_self
  all_goals rfl

theorem keyOfBytes_keyToBytes (k : Key) : keyOfBytes (keyToBytes k) = k := by
  simp only [keyOfBytes, keyToBytes, keyByte, Vector.getElem_ofFn]
  iterate 6 rw [BitVec.extractLsb'_append_extractLsb'_eq_extractLsb']
  exact BitVec.extractLsb'_eq_self
  all_goals rfl

/-- Words of the same lengths, joined, determine each other. -/
theorem append_eq_append_iff {m n : Nat} {x y : BitVec m} {a b : BitVec n} :
    x ++ a = y ++ b ↔ x = y ∧ a = b := by
  constructor
  · intro h
    have left := congrArg (BitVec.extractLsb' n m) h
    have right := congrArg (BitVec.extractLsb' 0 n) h
    rw [BitVec.extractLsb'_append_eq_left, BitVec.extractLsb'_append_eq_left] at left
    rw [BitVec.extractLsb'_append_eq_right, BitVec.extractLsb'_append_eq_right] at right
    exact ⟨left, right⟩
  · rintro ⟨rfl, rfl⟩
    rfl

theorem blockOfBytes_injective : Function.Injective blockOfBytes := by
  intro u v h
  obtain ⟨front, last⟩ := append_eq_append_iff.1 h
  simp only [append_eq_append_iff] at front
  ext j hj
  interval_cases j <;> simp only [front, last]

theorem keyOfBytes_injective : Function.Injective keyOfBytes := by
  intro u v h
  obtain ⟨front, last⟩ := append_eq_append_iff.1 h
  simp only [append_eq_append_iff] at front
  ext j hj
  interval_cases j <;> simp only [front, last]

/-- Settles O56: bytes joined in order give the word back, and no two arrays join to one word. -/
theorem byteArraysAgree : Obligations.ByteArraysAgree :=
  ⟨fun b j h => by simp [blockToBytes, blockByte], fun k j h => by simp [keyToBytes, keyByte],
    blockOfBytes_blockToBytes, fun _ => blockOfBytes_injective (blockOfBytes_blockToBytes _),
    keyOfBytes_keyToBytes, fun _ => keyOfBytes_injective (keyOfBytes_keyToBytes _)⟩

end Sys2Proof.Machine
end

section
/-!
PROOFS. The statements derived from 30_encoding.md: the operation map as a bijection (R113, R116), the legal command
words (R103), the fields of STATUS and CONFIG (R104, R105, R108), the reserved bits (R110), and the host-script language
(R114 to R116).

From O4 and O5 the decoder is one equivalence, `decode_eq_iff`: an access decodes to an operation just where the
operation is well-formed and the access is its transaction. Every statement on command words comes from it.
-/

namespace Sys2Proof

/- ## The operation map -/

theorem legalCmdWord_eq_false_iff {w : Word} : legalCmdWord w = false ↔ w ≠ 0#32 ∧ w ≠ 1#32 ∧ w ≠ 2#32 := by
  simp [legalCmdWord, and_assoc]

/-- Every word that is not a legal command is ILLEGAL (30_encoding.md R103). -/
theorem decodeCmd_illegal {w : Word} (h : legalCmdWord w = false) : decodeCmd w = .illegal w := by
  rcases decodeCmd_cases w with ⟨rfl, -⟩ | ⟨rfl, -⟩ | ⟨rfl, -⟩ | ⟨-, illegal⟩
  · cases h
  · cases h
  · cases h
  · exact illegal

/-- Settles O4: the two rows given by exclusion by their condition, a register's row by its offset and direction. -/
theorem decodeOfEncode : Obligations.DecodeOfEncode := by
  intro i wf
  cases i with
  | illegal w =>
    have illegal : legalCmdWord w = false := by simpa [Instr.wf] using wf
    exact (decode_cmdWrite w).trans (decodeCmd_illegal illegal)
  | busError off size d =>
    have rejected : accepted off size = false := by simpa [Instr.wf] using wf
    exact decode_rejected (a := ⟨off, size, d⟩) rejected
  | nop | enc | dec => rfl
  | rdCmd | rdStatus | rdConfig | rdLen | rdBlkHi | rdBlkLo | rdKeyHi | rdKeyLo => exact decode_regAccess _ .read
  | wrStatus v | wrConfig v | wrLen v | wrBlkHi v | wrBlkLo v | wrKeyHi v | wrKeyLo v =>
    exact decode_regAccess _ (.write v)

/-- An access decodes to an operation just where it is the transaction of that operation, a well-formed one
(30_encoding.md R113). -/
theorem decode_eq_iff {a : Access} {i : Instr} : decode a = i ↔ i.wf = true ∧ a = encode i := by
  constructor
  · rintro rfl
    obtain ⟨wf, enc⟩ := encodeOfDecode a
    exact ⟨wf, enc.symm⟩
  · rintro ⟨wf, rfl⟩
    exact decodeOfEncode i wf

/- ## Command words -/

theorem cmdWrite_inj {v w : Word} : cmdWrite v = cmdWrite w ↔ v = w := by
  simp [cmdWrite]

/-- One word alone issues an operation that has a fixed word (30_encoding.md R101, R103). -/
theorem decode_cmdWrite_eq_iff {v w : Word} {i : Instr} (wf : i.wf = true) (word : encode i = cmdWrite v) :
    decode (cmdWrite w) = i ↔ w = v := by
  rw [decode_eq_iff, word, cmdWrite_inj, and_iff_right wf]

theorem decode_cmdWrite_eq_illegal {w : Word} :
    decode (cmdWrite w) = .illegal w ↔ w ≠ 0#32 ∧ w ≠ 1#32 ∧ w ≠ 2#32 := by
  rw [decode_eq_iff, encode, and_iff_left rfl, Instr.wf, Bool.not_eq_true', legalCmdWord_eq_false_iff]

/-- No legal command has a reserved bit set (30_encoding.md R103). -/
theorem decode_cmdWrite_reserved {w : Word} (h : w.extractLsb' 4 28 ≠ 0#28) : decode (cmdWrite w) = .illegal w := by
  refine decode_cmdWrite_eq_illegal.2 ⟨?_, ?_, ?_⟩ <;> rintro rfl <;> exact absurd h (by decide)

/-- No legal command has an OP of 3 or more (30_encoding.md R103). -/
theorem decode_cmdWrite_reservedOp {w : Word} (h : 3 ≤ (w.extractLsb' 0 4).toNat) :
    decode (cmdWrite w) = .illegal w := by
  refine decode_cmdWrite_eq_illegal.2 ⟨?_, ?_, ?_⟩ <;> rintro rfl <;> exact absurd h (by decide)

/- ## Builds -/

/-- What a legal build is (00_scope.md R9, R10, R12). -/
theorem Build.wf_iff {b : Build} :
    b.wf = true ↔ 1 ≤ b.nr ∧ b.nr ≤ 255 ∧ b.rot ≤ 27 ∧ ptableOk b.ptable = true := by
  simp [Build.wf, and_assoc]

end Sys2Proof

namespace Sys2Proof.Machine

/- ## Executing a command word -/

/-- Settles O6: which access is the transaction of which command, by `decode_eq_iff`. -/
theorem legalCommandWords : Obligations.LegalCommandWords := by
  refine fun w => ⟨decode_cmdWrite_eq_iff rfl rfl, decode_cmdWrite_eq_iff rfl rfl, decode_cmdWrite_eq_iff rfl rfl,
    decode_cmdWrite_eq_illegal, decode_cmdWrite_reserved, decode_cmdWrite_reservedOp, fun s h0 h1 h2 => ?_⟩
  rw [decode_cmdWrite_eq_illegal.2 ⟨h0, h1, h2⟩]
  exact ⟨_, rfl, rfl⟩

/- ## Fields of a register word -/

/-- The bits a word was extended by are 0. -/
theorem extractLsb'_setWidth_eq_zero {w start : Nat} (x : BitVec w) (h : w ≤ start) (m len : Nat) :
    (x.setWidth m).extractLsb' start len = 0#len := by
  ext i hi
  simp [BitVec.getLsbD_of_ge x (start + i) (Nat.le_add_right_of_le h)]

/- The fields of STATUS (30_encoding.md R104). -/

theorem statusView_err (s : State) : (statusView s).extractLsb' 0 4 = s.err.code := by
  rw [statusView, BitVec.extractLsb'_setWidth_of_le (by decide), BitVec.extractLsb'_append_eq_right]

theorem statusView_ksState (s : State) : (statusView s).extractLsb' 4 2 = s.ks.state.code := by
  rw [statusView, BitVec.extractLsb'_setWidth_of_le (by decide), BitVec.extractLsb'_append_eq_of_le (by decide)]
  exact BitVec.extractLsb'_append_eq_right

theorem statusView_ksDir (s : State) : (statusView s).extractLsb' 6 2 = s.ks.dir.code := by
  rw [statusView, BitVec.extractLsb'_setWidth_of_le (by decide), BitVec.extractLsb'_append_eq_of_le (by decide),
    BitVec.extractLsb'_append_eq_of_le (by decide)]
  exact BitVec.extractLsb'_append_eq_right

theorem statusView_ksTaken (s : State) : (statusView s).extractLsb' 8 8 = BitVec.ofNat 8 s.ks.taken := by
  rw [statusView, BitVec.extractLsb'_setWidth_of_le (by decide), BitVec.extractLsb'_append_eq_of_le (by decide),
    BitVec.extractLsb'_append_eq_of_le (by decide)]
  exact BitVec.extractLsb'_append_eq_left

theorem statusView_reserved (s : State) : (statusView s).extractLsb' 16 16 = 0#16 :=
  extractLsb'_setWidth_eq_zero _ (by decide) 32 16

/- The codes of STATUS's fields (30_encoding.md R105; 60_exceptions.md R261). -/

theorem KsState.code_ne_three (k : KsState) : k.code ≠ 3#2 := by cases k <;> decide

theorem KsDir.code_ne_three (d : KsDir) : d.code ≠ 3#2 := by cases d <;> decide

theorem ErrCode.code_lt_seven (e : ErrCode) : e.code.toNat < 7 := by cases e <;> decide

/-- Settles O41: field by field. -/
theorem statusFields : Obligations.StatusFields := by
  intro s v
  have taken (h : s.ks.taken ≤ 255) : ((statusView s).extractLsb' 8 8).toNat = s.ks.taken := by
    rw [statusView_ksTaken, BitVec.toNat_ofNat, Nat.mod_eq_of_lt (by omega)]
  exact ⟨statusView_err s, statusView_ksState s, statusView_ksDir s, taken, statusView_reserved s,
    statusView_resetOf s.build, rfl, ⟨rfl, rfl, rfl⟩, ⟨rfl, rfl, rfl⟩,
    ⟨s.ks.state.code_ne_three, s.ks.dir.code_ne_three⟩, rfl, rfl, rfl, rfl, rfl, rfl, rfl, s.err.code_lt_seven⟩

/- The fields of CONFIG (30_encoding.md R108). -/

theorem configView_nr (s : State) : (configView s).extractLsb' 0 8 = BitVec.ofNat 8 s.build.nr := by
  rw [configView, BitVec.extractLsb'_setWidth_of_le (by decide), BitVec.extractLsb'_append_eq_right]

theorem configView_rot (s : State) : (configView s).extractLsb' 8 5 = BitVec.ofNat 5 s.build.rot := by
  rw [configView, BitVec.extractLsb'_setWidth_of_le (by decide), BitVec.extractLsb'_append_eq_of_le (by decide)]
  exact BitVec.extractLsb'_append_eq_right

theorem configView_swapMode (s : State) : (configView s).extractLsb' 13 1 = swapModeBit s.build.swapMode := by
  rw [configView, BitVec.extractLsb'_setWidth_of_le (by decide), BitVec.extractLsb'_append_eq_of_le (by decide)]
  exact BitVec.extractLsb'_append_eq_left

theorem configView_reserved (s : State) : (configView s).extractLsb' 14 18 = 0#18 :=
  extractLsb'_setWidth_eq_zero _ (by decide) 32 18

theorem swapModeBit_eq_zero {m : SwapMode} : swapModeBit m = 0#1 ↔ m = .decBracket := by cases m <;> decide

theorem swapModeBit_eq_one {m : SwapMode} : swapModeBit m = 1#1 ↔ m = .finalSwap := by cases m <;> decide

/-- Settles O42: a legal build's NR and ROT fit their fields. -/
theorem configFields : Obligations.ConfigFields := by
  intro s v wf
  obtain ⟨-, nr, rot, -⟩ := Build.wf_iff.1 wf
  refine ⟨?_, ?_, ?_, ?_, configView_reserved s, configView_default, rfl⟩
  · rw [configView_nr, BitVec.toNat_ofNat, Nat.mod_eq_of_lt (by omega)]
  · rw [configView_rot, BitVec.toNat_ofNat, Nat.mod_eq_of_lt (by omega)]
  · rw [configView_swapMode, swapModeBit_eq_zero]
  · rw [configView_swapMode, swapModeBit_eq_one]

/- ## Reserved bits -/

theorem lenView_reserved (s : State) : (lenView s).extractLsb' 16 16 = 0#16 :=
  extractLsb'_setWidth_eq_zero _ (by decide) 32 16

theorem keyHiView_reserved (s : State) : (keyHiView s).extractLsb' 24 8 = 0#8 :=
  extractLsb'_setWidth_eq_zero _ (by decide) 32 8

/-- A write of LEN takes bits [15:0] of its word alone (30_encoding.md R110). -/
theorem setLen_congr {v v' : Word} (h : v.extractLsb' 0 16 = v'.extractLsb' 0 16) (s : State) :
    setLen v s = setLen v' s := by
  have field {start : Nat} (fits : start + 8 ≤ 16) : v.extractLsb' start 8 = v'.extractLsb' start 8 := by
    rw [← BitVec.extractLsb'_extractLsb'_of_le fits, h, BitVec.extractLsb'_extractLsb'_of_le fits]
  rw [setLen, setLen, field (start := 0) (by decide), field (start := 8) (by decide)]

/-- A write of KEY_HI takes bits [23:0] of its word alone (30_encoding.md R110). -/
theorem setKeyHi_congr {v v' : Word} (h : v.extractLsb' 0 24 = v'.extractLsb' 0 24) (s : State) :
    setKeyHi v s = setKeyHi v' s := by
  rw [setKeyHi, setKeyHi, h]

/-- Settles O47: the views extend their fields by zeros, and the writes take their fields alone. -/
theorem reservedBitsReadZeroIgnoreWrites : Obligations.ReservedBitsReadZeroIgnoreWrites :=
  fun s _ _ => ⟨statusView_reserved s, lenView_reserved s, keyHiView_reserved s, configView_reserved s,
    fun h => congrArg completeWrite (setLen_congr h s), fun h => congrArg completeWrite (setKeyHi_congr h s), rfl, rfl,
    decode_cmdWrite_reserved⟩

/- ## The host-script language -/

theorem scriptTransactions_singleton (op : ScriptOp) : scriptTransactions [op] = op.expand := by
  simp [scriptTransactions]

/-- The word of LDLEN is its two bytes joined (30_encoding.md R115). -/
theorem ofNat_eq_setWidth_append (b k : Byte) : BitVec.ofNat 32 (k.toNat * 256 + b.toNat) = (k ++ b).setWidth 32 := by
  have joined : (k ++ b).toNat = k.toNat * 256 + b.toNat := by
    rw [BitVec.toNat_append, ← Nat.shiftLeft_add_eq_or_of_lt b.isLt, Nat.shiftLeft_eq]
  rw [← joined, BitVec.ofNat_toNat]

/-- What RDERR expects is met by the words with the expected code in bits [3:0] (30_encoding.md R115). -/
theorem meets_errCode {c : BitVec 4} {w : Word} :
    meets (some ⟨0x0000000F#32, c.setWidth 32⟩) (.data w) = true ↔ w.extractLsb' 0 4 = c := by
  have low : w &&& 0x0000000F#32 = (w.extractLsb' 0 4).setWidth 32 := (setWidth_extractLsb'_eq_and w 4).symm
  have inj : Function.Injective (BitVec.setWidth 32 : BitVec 4 → Word) :=
    Function.LeftInverse.injective (g := BitVec.setWidth 4) fun x => by simp
  simp only [meets, beq_iff_eq, low, inj.eq_iff]

/-- A word expected whole is met by that word alone (30_encoding.md R114). -/
theorem meets_word {v w : Word} : meets (some ⟨0xFFFFFFFF#32, v⟩) (.data w) = true ↔ w = v := by
  have all : w &&& 0xFFFFFFFF#32 = w := BitVec.and_allOnes
  simp only [meets, beq_iff_eq, all]

/-- Settles O8: the spec's examples compute, and each expansion is R115's row. -/
theorem scriptEncoding : Obligations.ScriptEncoding := by
  refine ⟨rfl, rfl, rfl, rfl, rfl, fun b => rfl, fun k => rfl, fun b k => ?_, fun e => ?_, fun e => ?_, fun e => ?_,
    fun c w => meets_errCode, fun v w => meets_word, rfl, rfl⟩
  · rw [scriptTransactions_singleton, ScriptOp.expand, ofNat_eq_setWidth_append]
    rfl
  · cases e <;> rfl
  · cases e <;> rfl
  · rfl

end Sys2Proof.Machine
end

section
/-!
PROOFS. The statements derived from 40_primitives.md: SUBST32 lane by lane (R133), PERM32 as a gather (R136) and as a
bijection (R138).

The gather is one rule for the bit at a position, `pos_perm32`. What a legal table adds is one fact, `ptable_perm`: its
entries are 1 to 32 in some order (R12), so an entry names a position of the operand and every position is named.
-/

namespace Sys2Proof.Machine

/- ## Substitution -/

/-- Settles O35: SUBST32 joins the four entries, lane 3 first. -/
theorem substitutionActsOnLanes : Obligations.SubstitutionActsOnLanes := fun b x lane => by
  match lane with
  | 0 => exact BitVec.extractLsb'_append_eq_right
  | 1 => exact (BitVec.extractLsb'_append_eq_of_le (by decide)).trans BitVec.extractLsb'_append_eq_right
  | 2 =>
    exact (BitVec.extractLsb'_append_eq_of_le (by decide)).trans <|
      (BitVec.extractLsb'_append_eq_of_le (by decide)).trans BitVec.extractLsb'_append_eq_right
  | 3 =>
    exact (BitVec.extractLsb'_append_eq_of_le (by decide)).trans <|
      (BitVec.extractLsb'_append_eq_of_le (by decide)).trans BitVec.extractLsb'_append_eq_left

/- ## Legal tables -/

/-- A legal table holds 1 to 32 in some order: 32 entries that take all 32 values (00_scope.md R12). -/
theorem ptable_perm {t : Vector Nat 32} (ok : ptableOk t = true) : t.toList.Perm (List.range' 1 32) := by
  have all : List.range' 1 32 ⊆ t.toList := by
    intro e he
    obtain ⟨k, hk, rfl⟩ := List.mem_range'.1 he
    have once : t.toList.count (k + 1) = 1 := by
      simpa using List.all_eq_true.1 ok k (List.mem_range.2 hk)
    rw [Nat.one_mul, Nat.add_comm]
    exact List.one_le_count_iff.1 once.ge
  exact ((List.subperm_of_subset List.nodup_range' all).perm_of_length_le (by simp)).symm

theorem ptable_mem_iff {t : Vector Nat 32} (ok : ptableOk t = true) {e : Nat} :
    e ∈ t.toList ↔ 1 ≤ e ∧ e ≤ 32 := by
  rw [(ptable_perm ok).mem_iff, List.mem_range'_1]
  omega

/-- An entry of a legal table is a 1-indexed position of a word. -/
theorem ptable_bounds {t : Vector Nat 32} (ok : ptableOk t = true) {i : Nat} (h : i < 32) : 1 ≤ t[i] ∧ t[i] ≤ 32 :=
  (ptable_mem_iff ok).1 (by simp)

/-- Every position of a word is named by an entry of a legal table. -/
theorem exists_ptable_eq {t : Vector Nat 32} (ok : ptableOk t = true) {p : Nat} (h : p < 32) :
    ∃ i, ∃ hi : i < 32, t[i] - 1 = p := by
  have named : p + 1 ∈ t.toList := (ptable_mem_iff ok).2 (by omega)
  obtain ⟨i, hi, entry⟩ := Vector.mem_iff_getElem.1 (Vector.mem_toList_iff.1 named)
  exact ⟨i, hi, by omega⟩

/- ## Permutation -/

/-- Words are equal when they agree at every position (00_scope.md R18). -/
theorem word_ext_pos {x y : Word} (h : ∀ i, i < 32 → pos x i = pos y i) : x = y := BitVec.eq_of_getMsbD_eq h

@[simp] theorem pos_perm32 (b : Build) (y : Word) {i : Nat} (h : i < 32) :
    pos (perm32 b y) i = pos y (b.ptable[i] - 1) := by
  rw [pos, perm32, BitVec.getMsbD_cast, BitVec.getMsbD_ofBoolListBE]
  simp [permBits, h]

/-- The gather in bit-index form: position `p` is bit `31 - p` (40_primitives.md R136). -/
theorem getLsbD_perm32 {b : Build} (ok : ptableOk b.ptable = true) (y : Word) {i : Nat} (h : i < 32) :
    (perm32 b y).getLsbD (31 - i) = y.getLsbD (32 - b.ptable[i]) := by
  obtain ⟨low, high⟩ := ptable_bounds ok h
  have gather := pos_perm32 b y h
  simp only [pos, BitVec.getMsbD_eq_getLsbD] at gather
  simpa [h, show b.ptable[i] - 1 < 32 by omega, show 31 - (b.ptable[i] - 1) = 32 - b.ptable[i] by omega] using gather

theorem perm32_zero (b : Build) : perm32 b 0#32 = 0#32 := by
  refine word_ext_pos fun i hi => ?_
  rw [pos_perm32 b _ hi]
  simp [pos]

theorem pos_allOnes {p : Nat} (h : p < 32) : pos (BitVec.allOnes 32) p = true := by
  rw [pos, BitVec.getMsbD_allOnes, decide_eq_true h]

theorem perm32_allOnes {b : Build} (ok : ptableOk b.ptable = true) :
    perm32 b (BitVec.allOnes 32) = BitVec.allOnes 32 := by
  refine word_ext_pos fun i hi => ?_
  obtain ⟨low, high⟩ := ptable_bounds ok hi
  rw [pos_perm32 b _ hi, pos_allOnes hi, pos_allOnes (by omega)]

theorem perm32_identity {b : Build} (table : b.ptable = identityPtable) (y : Word) : perm32 b y = y := by
  refine word_ext_pos fun i hi => ?_
  rw [pos_perm32 b y hi]
  simp [table, identityPtable]

/-- Counting the one bits of a word by position counts them by bit index. -/
theorem countP_pos_eq_countP_getLsbD (x : Word) :
    (List.range 32).countP (pos x) = (List.range 32).countP (fun i => x.getLsbD i) := by
  have reversed : (List.range 32).reverse = (List.range 32).map (31 - ·) := by decide
  rw [← List.countP_reverse, reversed, List.countP_map]
  refine List.countP_congr fun i hi => ?_
  have bound : i < 32 := List.mem_range.1 hi
  simp [pos, BitVec.getMsbD_eq_getLsbD, show 31 - i < 32 by omega, show 31 - (31 - i) = i by omega]

/-- The bits of the result, position by position, are the operand's bits in the order of the table. -/
theorem map_pos_perm32 (b : Build) (y : Word) :
    (List.range 32).map (pos (perm32 b y)) = permBits b y := by
  refine List.ext_getElem (by simp [permBits]) fun i hi _ => ?_
  have bound : i < 32 := by simpa using hi
  simp [permBits, bound]

/-- A legal table only reorders the bits, so PERM32 keeps the number of one bits (40_primitives.md R136). -/
theorem countP_pos_perm32 {b : Build} (ok : ptableOk b.ptable = true) (y : Word) :
    (List.range 32).countP (pos (perm32 b y)) = (List.range 32).countP (pos y) := by
  have shifted : (List.range' 1 32).map (· - 1) = List.range 32 := by decide
  calc (List.range 32).countP (pos (perm32 b y))
      = ((List.range 32).map (pos (perm32 b y))).countP id := by rw [List.countP_map]; rfl
    _ = (permBits b y).countP id := by rw [map_pos_perm32]
    _ = ((List.range' 1 32).map fun entry => pos y (entry - 1)).countP id := ((ptable_perm ok).map _).countP_eq _
    _ = (List.range 32).countP (pos y) := by rw [← shifted, List.countP_map, List.countP_map]; rfl

/-- Settles O36: each corner case from the gather, by position. -/
theorem permutationGathers : Obligations.PermutationGathers := by
  refine fun b y => ⟨fun i h => pos_perm32 b y h, fun ok i h => getLsbD_perm32 ok y h, perm32_zero b,
    fun ok => perm32_allOnes ok, fun ok => ?_, fun table => perm32_identity table y⟩
  rw [← countP_pos_eq_countP_getLsbD, ← countP_pos_eq_countP_getLsbD, countP_pos_perm32 ok]

/-- A legal table takes every position of the operand, so the result determines the operand (40_primitives.md R138). -/
theorem perm32_injective {b : Build} (ok : ptableOk b.ptable = true) : Function.Injective (perm32 b) := by
  refine fun y y' same => word_ext_pos fun p hp => ?_
  obtain ⟨i, hi, rfl⟩ := exists_ptable_eq ok hp
  rw [← pos_perm32 b y hi, ← pos_perm32 b y' hi, same]

/-- Settles O37: an injection of the finite set of words is a bijection, and the inverse is the gather read backwards. -/
theorem permutationBijective : Obligations.PermutationBijective := by
  refine fun b ok => ⟨Finite.injective_iff_bijective.1 (perm32_injective ok), ?_⟩
  rintro y _ rfl i h
  exact (pos_perm32 b y h).symm

end Sys2Proof.Machine
end

section
/-!
PROOFS. The statements derived from 41_round_function.md: the round in full (R161 to R164), the same round as its own
undoing (R165), and the commands as the cipher's closed form (R166; 43_engine_commands.md R222, R223, R227).

A round is its two halves, `leftHalf_roundFn` and `rightHalf_roundFn`: the left one is the operand's right half,
and the right one is masked with an f-result that reads the right half alone. So the f-result of a round and that of the
round on its swapped result are the same word, and the two masks cancel.
-/

namespace Sys2Proof.Machine

/- ## The round by its halves -/

@[simp] theorem leftHalf_roundFn (b : Build) (blk : Block) (k : Word) :
    leftHalf (roundFn b blk k) = rightHalf blk := leftHalf_joinHalves _ _

@[simp] theorem rightHalf_roundFn (b : Build) (blk : Block) (k : Word) :
    rightHalf (roundFn b blk k) = leftHalf blk ^^^ fFun b (rightHalf blk) k := rightHalf_joinHalves _ _

/-- R164's first corner case. -/
theorem roundFn_of_fFun_zero {b : Build} {blk : Block} {k : Word} (zero : fFun b (rightHalf blk) k = 0#32) :
    roundFn b blk k = swap64 blk :=
  block_ext (by simp) (by simp [zero])

/-- A fixed block of a round has equal halves (R161). -/
theorem halves_eq_of_roundFn_eq_self {b : Build} {blk : Block} {k : Word} (fixed : roundFn b blk k = blk) :
    leftHalf blk = rightHalf blk := by
  rw [← leftHalf_roundFn b blk k, fixed]

theorem roundFn_ne_id (b : Build) (k : Word) : (roundFn b · k) ≠ id := fun identity => by
  have equal := halves_eq_of_roundFn_eq_self (congrFun identity (joinHalves 0#32 1#32))
  rw [leftHalf_joinHalves, rightHalf_joinHalves] at equal
  exact absurd equal (by decide)

/-- Settles O38: the formula is the definition, and a round is never the identity because it moves a block with unequal
halves. -/
theorem roundFormula : Obligations.RoundFormula :=
  fun b _ k => ⟨rfl, roundFn_of_fFun_zero, roundFn_ne_id b k⟩

/- ## The round undone -/

theorem swap64_roundFn_swap64_roundFn (b : Build) (k : Word) (blk : Block) :
    swap64 (roundFn b (swap64 (roundFn b blk k)) k) = blk := by
  apply block_ext
  · calc leftHalf (swap64 (roundFn b (swap64 (roundFn b blk k)) k))
      _ = leftHalf blk ^^^ fFun b (rightHalf blk) k ^^^ fFun b (rightHalf blk) k := by simp
      _ = leftHalf blk := by rw [BitVec.xor_assoc, BitVec.xor_self, BitVec.xor_zero]
  · simp

theorem roundFn_bijective (b : Build) (k : Word) : Function.Bijective (roundFn b · k) := by
  refine Function.bijective_iff_has_inverse.2 ⟨fun blk => swap64 (roundFn b (swap64 blk) k), ?_, ?_⟩
  · exact swap64_roundFn_swap64_roundFn b k
  · intro blk
    have undone := congrArg swap64 (swap64_roundFn_swap64_roundFn b k (swap64 blk))
    simpa using undone

/-- Settles O39: the undoing is a two-sided inverse, the swap being its own inverse. -/
theorem roundInverse : Obligations.RoundInverse :=
  fun b k => ⟨swap64_roundFn_swap64_roundFn b k, roundFn_bijective b k⟩

/- ## Commands -/

/-- The whole next state of a legal command in either direction, its write completed. -/
theorem exec_command_of_legal {s : State} (build : s.build.wf = true) (legal : s.lenLegal = true) (d : Dir) :
    exec d.command s = .next
      { s with
        blk := cipherIn d s.build s.key s.blk
        err := .none
        ks := cipherSpent d s.build s.key
        eng := ⟨.idle, d, s.build.nr, cipherIn d s.build s.key s.blk⟩
        replies := s.replies ++ [.done] } := by
  rw [exec_command, transform_legal (rounds_pos_of_wf build) legal d]
  rfl

/-- Settles O18: the legal command of direction ENC, whose closed form is `E`. -/
theorem encryptionResult : Obligations.EncryptionResult := fun _ build legal => exec_command_of_legal build legal .enc

/-- Settles O19: the legal command of direction DEC, whose closed form is `D`. -/
theorem decryptionResult : Obligations.DecryptionResult := fun _ build legal => exec_command_of_legal build legal .dec

end Sys2Proof.Machine
end

section
/-!
PROOFS. The statements derived from 42_key_scheduler.md: the generation step and the store it fills (R184 to R187, R195),
the retrievals after a load (R188 to R192), what STATUS shows of the scheduler (R196), and the errors that no command can
reach (R181; 60_exceptions.md R267).

After a load the scheduler is `cipherLoaded`, so the store is read off the closed form `cipherSubkey`. From there NR
retrievals are one induction, `MidCommand.ksRetrieve_left`: they deliver the store in the delivery order of their
direction and leave the scheduler spent.
-/

namespace Sys2Proof.Machine

/- ## The errors of the scheduler -/

/-- Where the input of the next step is one that the FCE refuses (20_memory.md R73). -/
theorem nextAccepted_eq_false_iff {s : State} :
    s.nextAccepted = false ↔ ∃ a rest, s.pending = .access a :: rest ∧ accepted a.off a.size = false := by
  cases hp : s.pending with
  | nil => simp [State.nextAccepted, hp]
  | cons input rest => cases input <;> simp [State.nextAccepted, Input.accepted, hp]

/-- No operation puts a scheduler error in ERR: an access writes E_ILLEGAL_CMD at most, and a command the error of one of
its checks or E_NONE (60_exceptions.md R265, R267). -/
theorem exec_keeps_hostVisible {i : Instr} {s t : State} (h : exec i s = .next t) (visible : s.err.hostVisible = true) :
    t.err.hostVisible = true := by
  rcases mayRun_false_or_command i with access | ⟨d, rfl⟩
  · rw [exec_access access] at h
    cases h
    rcases accessEffect_err i s with kept | ⟨-, illegal⟩
    · simpa [kept] using visible
    · simp [illegal, ErrCode.hostVisible]
  · rw [exec_command] at h
    obtain ⟨s', hs', rfl⟩ := completeCommand_cases h
    cases hb : engBegin d s with
    | error e =>
      rw [transform_error hb] at hs'
      cases hs'
      rcases engBegin_error hb with rfl | rfl <;> rfl
    | ok s₀ =>
      obtain ⟨ks, w, hrun, -, -⟩ := transform_ok hb
      rw [hrun] at hs'
      cases hs'
      rfl

/-- Settles O11: the steps of an idle FCE by its next input; every operation completes (`exec_completes`), for the rounds
of a command never run out of subkeys. -/
theorem schedulerErrorsUnreachable : Obligations.SchedulerErrorsUnreachable := by
  refine ⟨fun s idle next => ?_, fun s idle next => ?_, fun b => ⟨rfl, rfl⟩⟩
  · rcases step_cases s with
      ⟨rest, -, hs⟩ | ⟨-, running, -⟩ | ⟨a, rest, -, -, -, hs⟩ | ⟨a, rest, hp, -, rejected, -⟩ | ⟨-, -, hs⟩
    · exact ⟨_, hs, rfl, fun _ => rfl⟩
    · cases idle.symm.trans running
    · obtain ⟨t, ht, idle', -⟩ := exec_completes (s := { s with pending := rest }) idle (decode a)
      exact ⟨t, hs.trans ht, idle', exec_keeps_hostVisible (s := { s with pending := rest }) ht⟩
    · cases next.symm.trans (nextAccepted_eq_false_iff.2 ⟨a, rest, hp, rejected⟩)
    · exact ⟨s, hs, idle, id⟩
  · obtain ⟨a, rest, hp, rejected⟩ := nextAccepted_eq_false_iff.1 next
    rw [step_of_access hp idle, serveAccess_rejected rejected]

/- ## What STATUS shows of the scheduler -/

/-- The STATUS word of a spent scheduler with ERR clear: KS_TAKEN above the byte of KS_DIR, KS_STATE 2 and ERR 0
(30_encoding.md R104, R105). -/
theorem statusView_of_exhausted {s : State} (err : s.err = .none) (state : s.ks.state = .exhausted)
    (fits : s.ks.taken ≤ 255) :
    statusView s = BitVec.ofNat 32 (256 * s.ks.taken + (64 * s.ks.dir.code.toNat + 0x20)) := by
  have bytes : statusView s = (BitVec.ofNat 8 s.ks.taken ++ (s.ks.dir.code ++ 0x20#6)).setWidth 32 := by
    rw [statusView, err, state, BitVec.append_assoc, BitVec.append_assoc]
    rfl
  have low : (s.ks.dir.code ++ 0x20#6).toNat = 64 * s.ks.dir.code.toNat + 0x20 := by
    cases s.ks.dir <;> rfl
  rw [bytes, ← ofNat_eq_setWidth_append, low, BitVec.toNat_ofNat, Nat.mod_eq_of_lt (by omega), Nat.mul_comm]

/-- A command that succeeds leaves the scheduler spent in its direction, and STATUS shows it (42_key_scheduler.md
R196). -/
theorem exec_legal_scheduler {s : State} (build : s.build.wf = true) (legal : s.lenLegal = true) (d : Dir) :
    ∃ t, exec d.command s = .next t ∧ t.ks = cipherSpent d s.build s.key ∧
      statusView t = BitVec.ofNat 32 (256 * s.build.nr + (64 * d.ksDir.code.toNat + 0x20)) := by
  obtain ⟨-, fits, -, -⟩ := Build.wf_iff.1 build
  refine ⟨_, exec_command_of_legal build legal d, rfl, ?_⟩
  rw [statusView_of_exhausted rfl rfl fits]
  cases d <;> rfl

/-- A command that fails its checks leaves the scheduler as it was (42_key_scheduler.md R196; 43_engine_commands.md
R225). -/
theorem exec_illegalLen_scheduler {s : State} (illegal : s.lenLegal = false) (d : Dir) :
    ∃ t, exec d.command s = .next t ∧ t.ks = s.ks := by
  have failed : ∃ e, engBegin d s = .error e := by
    rcases engBegin_cases d s with ⟨-, hb⟩ | ⟨-, -, hb⟩ | ⟨blkBits, keyBits, -⟩
    · exact ⟨_, hb⟩
    · exact ⟨_, hb⟩
    · cases illegal.symm.trans ((lenLegal_iff s).2 ⟨blkBits, keyBits⟩)
  obtain ⟨e, hb⟩ := failed
  rw [exec_command, transform_error hb]
  exact ⟨_, rfl, rfl⟩

/-- An operation leaves the scheduler as it was or, being a command that succeeds, EXHAUSTED (42_key_scheduler.md R181,
R196). -/
theorem exec_ks_eq_or_exhausted {i : Instr} {s t : State} (build : s.build.wf = true) (h : exec i s = .next t) :
    t.ks = s.ks ∨ t.ks.state = .exhausted := by
  rcases mayRun_false_or_command i with access | ⟨d, rfl⟩
  · rw [exec_access access] at h
    cases h
    exact .inl (accessEffect_ks i s)
  · cases legal : s.lenLegal with
    | true =>
      obtain ⟨t', ht', spent, -⟩ := exec_legal_scheduler build legal d
      cases h.symm.trans ht'
      exact .inr (by rw [spent]; rfl)
    | false =>
      obtain ⟨t', ht', kept⟩ := exec_illegalLen_scheduler legal d
      cases h.symm.trans ht'
      exact .inl kept

/-- Settles O28: the scheduler after a command is the spent one of the closed form, or the one before it. -/
theorem schedulerViewAfterCommands : Obligations.SchedulerViewAfterCommands := by
  refine fun s build => ⟨⟨rfl, rfl, rfl⟩, fun legal => ?_, fun legal => ?_,
    fun d illegal => exec_illegalLen_scheduler illegal d, fun i t hidden h => ?_⟩
  · obtain ⟨t, ht, spent, status⟩ := exec_legal_scheduler build legal .enc
    exact ⟨t, ht, by rw [spent]; rfl, by rw [spent]; rfl, by rw [spent]; rfl, status⟩
  · obtain ⟨t, ht, spent, status⟩ := exec_legal_scheduler build legal .dec
    exact ⟨t, ht, by rw [spent]; rfl, by rw [spent]; rfl, by rw [spent]; rfl, status⟩
  · rcases exec_ks_eq_or_exhausted build h with kept | exhausted
    · rwa [kept]
    · rw [exhausted]
      decide

/- ## The subkeys of a store -/

/-- The first 32 bits of a full key are its left half and the top four bits of its right half (42_key_scheduler.md
R187). -/
theorem firstBits_joinKey (l r : KeyHalf) : firstBits (joinKey l r) = l ++ r.extractLsb' 24 4 := by
  ext i hi
  simp only [firstBits, joinKey, ← BitVec.getLsbD_eq_getElem, BitVec.getLsbD_extractLsb', BitVec.getLsbD_append]
  by_cases low : i < 4
  · simp [low, hi, show 24 + i < 28 by omega]
  · simp [low, hi, show ¬ 24 + i < 28 by omega, show 24 + i - 28 = i - 4 by omega]

theorem joinKey_halves (k : Key) : joinKey (keyLeft k) (keyRight k) = k :=
  BitVec.extractLsb'_append_extractLsb'

/-- Settles O30: the third is R187's form of a subkey, the first two are the definition. -/
theorem subkeyOfRotatedHalves : Obligations.SubkeyOfRotatedHalves :=
  fun _ _ _ => ⟨rfl, rfl, firstBits_joinKey _ _⟩

@[simp] theorem cipherSubkeys_length (b : Build) (k : Key) : (cipherSubkeys b k).length = b.nr := by
  simp [cipherSubkeys]

theorem cipherSubkeys_getElem? {b : Build} (k : Key) {j : Nat} (h : j < b.nr) :
    (cipherSubkeys b k)[j]? = some (cipherSubkey b k j) := by
  simp [cipherSubkeys, h]

theorem mem_cipherSubkeys {b : Build} {k : Key} {w : Word} (h : w ∈ cipherSubkeys b k) : ∃ j, cipherSubkey b k j = w := by
  obtain ⟨j, -, hj⟩ := List.mem_map.1 h
  exact ⟨j, hj⟩

/-- A load with the legal key length answers the scheduler of the closed form and no other. -/
theorem eq_cipherLoaded {b : Build} {k : Key} {ks : Scheduler} (h : ksLoad b k 56#8 = .ok ks) :
    ks = cipherLoaded b k := by
  cases h.symm.trans (ksLoad_eq b k)
  rfl

/-- Settles O29: the loaded scheduler of the closed form. -/
theorem scheduleClosedForm : Obligations.ScheduleClosedForm :=
  fun b k => ⟨cipherLoaded b k, ksLoad_eq b k, cipherSubkeys_length b k, fun _ h => cipherSubkeys_getElem? k h,
    rfl, rfl, rfl, rfl, rfl⟩

/- ## Retrievals after a load -/

/-- A retrieval in the middle of a command delivers the next subkey of the delivery order. -/
theorem MidCommand.ksNextIn_delivers {nr taken : Nat} {d : Dir} {ks : Scheduler} (mid : MidCommand nr d taken ks)
    (left : taken < nr) :
    ∃ k, (deliveryOrder d ks.sk).drop taken = k :: (deliveryOrder d ks.sk).drop (taken + 1) ∧
      ksNextIn nr d ks = .ok k (ksAdvance nr d.ksDir ks) ∧ MidCommand nr d (taken + 1) (ksAdvance nr d.ksDir ks) := by
  obtain ⟨k, stored, retrieved, mid'⟩ := mid.next left
  rw [← mid.deliveryOrder_getElem? left] at stored
  obtain ⟨inStore, hk⟩ := List.getElem?_eq_some_iff.1 stored
  exact ⟨k, by rw [List.drop_eq_getElem_cons inStore, hk], retrieved, mid'⟩

/-- The last retrieval of a command leaves the scheduler spent (42_key_scheduler.md R192). -/
theorem MidCommand.advance_last {nr taken : Nat} {d : Dir} {ks : Scheduler} (mid : MidCommand nr d taken ks)
    (last : taken + 1 = nr) : ksAdvance nr d.ksDir ks = ks.spent nr d := by
  simp [ksAdvance, Scheduler.spent, mid.taken, last]

/-- The retrievals that are left, from the middle of a command on: they deliver what is left of the delivery order, and
the last of them leaves the scheduler spent (42_key_scheduler.md R188, R189). -/
theorem MidCommand.ksRetrieve_left {nr n taken : Nat} {d : Dir} {ks : Scheduler} (mid : MidCommand nr d taken ks)
    (left : taken + n = nr) :
    ∃ last, ksRetrieve nr d n ks = some ((deliveryOrder d ks.sk).drop taken, last) ∧
      (0 < n → last = ks.spent nr d) := by
  induction n generalizing taken ks with
  | zero =>
    have all : (deliveryOrder d ks.sk).drop taken = [] := List.drop_eq_nil_of_le (by simp [mid.store, ← left])
    exact ⟨ks, by rw [all]; rfl, nofun⟩
  | succ n ih =>
    obtain ⟨k, order, retrieved, mid'⟩ := mid.ksNextIn_delivers (by omega)
    obtain ⟨last, rest, spent⟩ := ih mid' (by omega)
    refine ⟨last, by simp [ksRetrieve, retrieved, rest, order], fun _ => ?_⟩
    rcases Nat.eq_zero_or_pos n with rfl | more
    · exact (Prod.mk.inj (Option.some.inj rest)).2.symm.trans (mid.advance_last left)
    · exact spent more

/-- All retrievals after a load. -/
theorem ksRetrieve_of_load {b : Build} {k : Key} {ks : Scheduler} (h : ksLoad b k 56#8 = .ok ks) (d : Dir) :
    ∃ last, ksRetrieve b.nr d b.nr ks = some (deliveryOrder d ks.sk, last) ∧ (0 < b.nr → last = ks.spent b.nr d) :=
  (midCommand_of_load h d).ksRetrieve_left (Nat.zero_add _)

/-- Settles O32: the delivery order is the store for ENC and the reversed store for DEC. -/
theorem scheduleSymmetry : Obligations.ScheduleSymmetry := by
  intro b k ks h
  obtain ⟨encLast, enc, -⟩ := ksRetrieve_of_load h .enc
  obtain ⟨decLast, dec, -⟩ := ksRetrieve_of_load h .dec
  exact ⟨⟨encLast, enc⟩, decLast, dec⟩

/-- A spent scheduler raises E_KS_EXHAUSTED in its own direction and E_KS_MIXED in the other: MIXED is checked first
(42_key_scheduler.md R190). -/
theorem ksNextIn_spent (nr : Nat) (d d' : Dir) (ks : Scheduler) :
    ksNextIn nr d' (ks.spent nr d) = .raise (if d' = d then .ksExhausted else .ksMixed) := by
  cases d <;> cases d' <;> simp [ksNextIn, ksNextEnc, ksNextDec, Scheduler.spent, Dir.ksDir]

/-- Settles O33: the retrievals after a load leave the scheduler spent. -/
theorem scheduleExhausts : Obligations.ScheduleExhausts := by
  intro b k ks d rounds h
  have store : ks.sk.length = b.nr := (midCommand_of_load h d).store
  obtain ⟨last, delivered, spent⟩ := ksRetrieve_of_load h d
  obtain rfl := spent rounds
  exact ⟨store, _, _, delivered, by simp [store], rfl, fun d' => ksNextIn_spent b.nr d d' ks⟩

/- ## Corner cases of the schedule -/

/-- Where the total rotation leaves both halves as they are, the subkey is `K[55:24]`. -/
theorem cipherSubkey_of_fixed {b : Build} {k : Key} {j : Nat} (left : rotl28 (keyLeft k) ((j + 1) * b.rot) = keyLeft k)
    (right : rotl28 (keyRight k) ((j + 1) * b.rot) = keyRight k) : cipherSubkey b k j = firstBits k := by
  rw [cipherSubkey, left, right, joinKey_halves]

theorem rotl28_allOnes (r : Nat) : rotl28 (BitVec.allOnes 28) r = BitVec.allOnes 28 := by
  refine BitVec.eq_of_getLsbD_eq fun i hi => ?_
  rw [getLsbD_rotl28 _ _ _ hi, BitVec.getLsbD_allOnes, BitVec.getLsbD_allOnes, decide_eq_true hi,
    decide_eq_true (Nat.mod_lt _ (by decide))]

theorem rotl28_of_zero (r : Nat) : rotl28 0#28 r = 0#28 := by
  refine BitVec.eq_of_getLsbD_eq fun i hi => ?_
  rw [getLsbD_rotl28 _ _ _ hi]
  simp

theorem cipherSubkey_allOnes (b : Build) (j : Nat) : cipherSubkey b (BitVec.allOnes 56) j = 0xFFFFFFFF#32 :=
  cipherSubkey_of_fixed (k := BitVec.allOnes 56) (rotl28_allOnes _) (rotl28_allOnes _)

theorem cipherSubkey_zero (b : Build) (j : Nat) : cipherSubkey b 0#56 j = 0#32 :=
  cipherSubkey_of_fixed (k := 0#56) (rotl28_of_zero _) (rotl28_of_zero _)

theorem rotl28_27 (x : KeyHalf) : rotl28 x 27 = x.rotateRight 1 := by
  rw [rotl28_eq_or_shifts, BitVec.or_comm]
  rfl

/-- Settles O34: each case for one subkey of the closed form. -/
theorem scheduleCornerCases : Obligations.ScheduleCornerCases := by
  intro b k ks h
  obtain rfl := eq_cipherLoaded h
  refine ⟨fun j hj turns => ?_, ?_, ?_, fun equal j hj => ?_, rotl28_27⟩
  · rw [cipherLoaded_sk, cipherSubkeys_getElem? k hj,
      cipherSubkey_of_fixed (rotl28_eq_self _ turns) (rotl28_eq_self _ turns)]
    rfl
  · rintro rfl w hw
    obtain ⟨j, rfl⟩ := mem_cipherSubkeys hw
    exact cipherSubkey_allOnes b j
  · rintro rfl w hw
    obtain ⟨j, rfl⟩ := mem_cipherSubkeys hw
    exact cipherSubkey_zero b j
  · have same : keyRight k = keyLeft k := equal.symm
    rw [cipherLoaded_sk, cipherSubkeys_getElem? k hj, cipherSubkey, firstBits_joinKey, same]

/- ## The key bits that reach the one subkey of a build with one round -/

/-- Fields of two words are equal when their bits are. -/
theorem extractLsb'_eq_iff {w start len : Nat} {x y : BitVec w} :
    x.extractLsb' start len = y.extractLsb' start len ↔ ∀ i, i < len → x.getLsbD (start + i) = y.getLsbD (start + i) := by
  constructor
  · intro h i hi
    simpa [hi] using congrArg (·.getLsbD i) h
  · intro h
    refine BitVec.eq_of_getLsbD_eq fun i hi => ?_
    simpa [hi] using h i hi

/-- A rotation loses no bit: rotating on to a whole number of turns undoes it. -/
theorem rotl28_inj {x y : KeyHalf} {r : Nat} : rotl28 x r = rotl28 y r ↔ x = y := by
  have undone (z : KeyHalf) : rotl28 (rotl28 z r) (28 - r % 28) = z := by
    rw [rotl28_rotl28, rotl28_eq_self z (by omega)]
  exact ⟨fun h => by rw [← undone x, h, undone], congrArg (rotl28 · r)⟩

/-- Equal subkeys have equal left halves and the same four bits at the top of the rotated right half (42_key_scheduler.md
R187). -/
theorem cipherSubkey_eq_iff {b : Build} {k k' : Key} {j : Nat} :
    cipherSubkey b k j = cipherSubkey b k' j ↔
      keyLeft k = keyLeft k' ∧
        (rotl28 (keyRight k) ((j + 1) * b.rot)).extractLsb' 24 4 =
          (rotl28 (keyRight k') ((j + 1) * b.rot)).extractLsb' 24 4 := by
  rw [cipherSubkey, cipherSubkey, firstBits_joinKey, firstBits_joinKey, append_eq_append_iff, rotl28_inj]

/-- The key bit that a rotation by `rot` brings to bit `24 + i` of the right half (00_scope.md R19). -/
def topBitSource (rot i : Nat) : Nat := (24 + i + (28 - rot % 28)) % 28

/-- A bit at the top of the rotated right half is the key bit it came from. -/
theorem getLsbD_rotl28_keyRight (k : Key) (rot : Nat) {i : Nat} (h : i < 4) :
    (rotl28 (keyRight k) rot).getLsbD (24 + i) = k.getLsbD (topBitSource rot i) := by
  rw [getLsbD_rotl28 _ _ _ (by omega), keyRight, BitVec.getLsbD_extractLsb', Nat.zero_add]
  simp [topBitSource, Nat.mod_lt]

/-- Which key bits the one subkey is made of, when NR is 1. -/
theorem oneRound_cipherSubkeys_eq_iff {b : Build} (one : b.nr = 1) (k k' : Key) :
    cipherSubkeys b k = cipherSubkeys b k' ↔
      (∀ i, i < 28 → k.getLsbD (28 + i) = k'.getLsbD (28 + i)) ∧
      ∀ i, i < 4 → k.getLsbD (topBitSource b.rot i) = k'.getLsbD (topBitSource b.rot i) := by
  have single (k : Key) : cipherSubkeys b k = [cipherSubkey b k 0] := by rw [cipherSubkeys, one]; rfl
  rw [single, single, List.singleton_inj, cipherSubkey_eq_iff, keyLeft, keyLeft, extractLsb'_eq_iff, extractLsb'_eq_iff]
  refine and_congr_right fun _ => forall₂_congr fun i hi => ?_
  rw [getLsbD_rotl28_keyRight _ _ hi, getLsbD_rotl28_keyRight _ _ hi, Nat.zero_add, Nat.one_mul]

/-- With no rotation the four bits are KEY[27:24]. -/
theorem topBitSource_of_turns {rot i : Nat} (turns : rot % 28 = 0) (h : i < 4) : topBitSource rot i = 24 + i := by
  rw [topBitSource]
  omega

/-- Every other rotation brings a bit below KEY[24] to the top. -/
theorem exists_topBitSource_lt {rot : Nat} (turned : rot % 28 ≠ 0) : ∃ i, i < 4 ∧ topBitSource rot i < 24 := by
  rcases Nat.lt_or_ge 24 (rot % 28) with far | near
  · exact ⟨3, by omega, by rw [topBitSource]; omega⟩
  · exact ⟨0, by omega, by rw [topBitSource]; omega⟩

/-- A key with one bit set, and that below KEY[24], agrees with the key 0 on KEY[55:24]. -/
theorem extractLsb'_twoPow_of_lt {p : Nat} (low : p < 24) :
    (BitVec.twoPow 56 p).extractLsb' 24 32 = (0#56).extractLsb' 24 32 :=
  extractLsb'_eq_iff.2 fun i _ => by
    rw [BitVec.getLsbD_twoPow, decide_eq_false (show p ≠ 24 + i by omega), Bool.and_false, BitVec.getLsbD_zero]

/-- Settles O25: where ROT turns the halves, the keys 0 and the one with just such a low bit set agree on KEY[55:24]
and have different subkeys. -/
theorem oneRoundKeyUse : Obligations.OneRoundKeyUse := by
  refine fun b one => ⟨⟨fun clause => ?_, fun turns k k' agree => ?_⟩, oneRound_cipherSubkeys_eq_iff one⟩
  · by_contra turned
    obtain ⟨i, hi, low⟩ := exists_topBitSource_lt turned
    obtain ⟨-, top⟩ := (oneRound_cipherSubkeys_eq_iff one _ _).1 (clause _ _ (extractLsb'_twoPow_of_lt low))
    simpa [BitVec.getLsbD_twoPow, show topBitSource b.rot i < 56 by omega] using top i hi
  · rw [extractLsb'_eq_iff] at agree
    refine (oneRound_cipherSubkeys_eq_iff one k k').2 ⟨fun i hi => ?_, fun i hi => ?_⟩
    · simpa [← Nat.add_assoc] using agree (4 + i) (by omega)
    · rw [topBitSource_of_turns turns hi]
      exact agree i (by omega)

end Sys2Proof.Machine
end

section
/-!
PROOFS. The statements derived from 43_engine_commands.md: the commands (R221 to R231), the register accesses (R233 to
R244), and the micro-steps of a command (R224, R226; 70_reset_and_hazards.md R291, R299).

The statements on results hold for every build, one without rounds included, so they rest on `exec_command_blk`: a legal
command leaves `E` or `D` of BLK. The two transforms undo each other because a run of rounds is undone by the rounds in
reverse order on the swapped halves (`swap64_cipherRounds_reverse`), and both read the key through its subkeys alone
(`cipherIn_congr`).
-/

namespace Sys2Proof.Machine

/- ## The result of a command, for every build -/

/-- The working block after the rounds that are left, from the middle of a command on: `engRounds_left` with no round
left included, so that it holds of a build without rounds too (43_engine_commands.md R224, R226). -/
theorem engRounds_left_w {n taken : Nat} {s : State} (mid : MidCommand s.build.nr s.eng.dir taken s.ks)
    (left : taken + n = s.build.nr) :
    ∃ ks, engRounds n s = .next
      { s with
        ks := ks
        eng := { s.eng with
          w := cipherRounds s.build ((deliveryOrder s.eng.dir s.ks.sk).drop taken) s.eng.w
          round := s.eng.round + n } } := by
  rcases Nat.eq_zero_or_pos n with rfl | more
  · have all : (deliveryOrder s.eng.dir s.ks.sk).drop taken = [] :=
      List.drop_eq_nil_of_le (by simp [mid.store, ← left])
    exact ⟨s.ks, by rw [all]; rfl⟩
  · exact ⟨_, engRounds_left mid more left⟩

/-- Checks that pass and rounds that complete are the command (43_engine_commands.md R224). -/
theorem transform_of_engRounds {d : Dir} {s s₀ t : State} (begun : engBegin d s = .ok s₀)
    (rounds : engRounds s₀.build.nr s₀ = .next t) : transform d s = .next (engFinish t) := by
  simp only [transform, begun, rounds]

/-- ENC and DEC with a legal LEN leave `E` or `D` of BLK, whatever the build; build, KEY and LEN stay
(43_engine_commands.md R222, R223, R227). -/
theorem exec_command_blk {s : State} (legal : s.lenLegal = true) (d : Dir) :
    ∃ t, exec d.command s = .next t ∧ t.blk = cipherIn d s.build s.key s.blk ∧
      t.build = s.build ∧ t.key = s.key ∧ t.len = s.len := by
  obtain ⟨ks, rounds⟩ := engRounds_left_w (s := engStart d { s with ks := cipherLoaded s.build s.key })
    (midCommand_of_load (ksLoad_eq s.build s.key) d) (Nat.zero_add _)
  rw [exec_command, transform_of_engRounds (engBegin_legal legal d) rounds]
  exact ⟨_, rfl, swapIf_cipherRounds d s.build s.key s.blk, rfl, rfl, rfl⟩

/- ## ENC and DEC undo each other -/

/-- A run of rounds is undone, last round first, on the swapped halves (41_round_function.md R165, R166). -/
theorem swap64_cipherRounds_reverse (b : Build) (ks : List Word) (blk : Block) :
    swap64 (cipherRounds b ks.reverse (swap64 (cipherRounds b ks blk))) = blk := by
  induction ks generalizing blk with
  | nil => exact swap64_swap64 blk
  | cons k ks ih =>
    have inner :
        cipherRounds b ks.reverse (swap64 (cipherRounds b ks (roundFn b blk k))) = swap64 (roundFn b blk k) := by
      rw [← swap64_swap64 (cipherRounds _ _ _), ih]
    calc swap64 (cipherRounds b (k :: ks).reverse (swap64 (cipherRounds b (k :: ks) blk)))
      _ = swap64 (roundFn b (cipherRounds b ks.reverse (swap64 (cipherRounds b ks (roundFn b blk k)))) k) := by
        simp [cipherRounds]
      _ = blk := by rw [inner, swap64_roundFn_swap64_roundFn]

theorem cipherDec_cipherEnc (b : Build) (k : Key) (blk : Block) : cipherDec b k (cipherEnc b k blk) = blk := by
  cases mode : b.swapMode <;> simp only [cipherDec, cipherEnc, mode] <;> exact swap64_cipherRounds_reverse b _ blk

theorem cipherEnc_cipherDec (b : Build) (k : Key) (blk : Block) : cipherEnc b k (cipherDec b k blk) = blk := by
  have undone := swap64_cipherRounds_reverse b (cipherSubkeys b k).reverse
  simp only [List.reverse_reverse] at undone
  cases mode : b.swapMode with
  | decBracket =>
    simp only [cipherDec, cipherEnc, mode]
    rw [← swap64_swap64 (cipherRounds b (cipherSubkeys b k) _), undone, swap64_swap64]
  | finalSwap =>
    simp only [cipherDec, cipherEnc, mode]
    exact undone blk

theorem cipherEnc_bijective (b : Build) (k : Key) : Function.Bijective (cipherEnc b k) :=
  Function.bijective_iff_has_inverse.2 ⟨cipherDec b k, cipherDec_cipherEnc b k, cipherEnc_cipherDec b k⟩

theorem cipherDec_bijective (b : Build) (k : Key) : Function.Bijective (cipherDec b k) :=
  Function.bijective_iff_has_inverse.2 ⟨cipherEnc b k, cipherEnc_cipherDec b k, cipherDec_cipherEnc b k⟩

/-- Two commands in a row compose their transforms under the one key. -/
theorem exec_command_then {s : State} (legal : s.lenLegal = true) (d d' : Dir) :
    ∃ t u, exec d.command s = .next t ∧ exec d'.command t = .next u ∧
      u.blk = cipherIn d' s.build s.key (cipherIn d s.build s.key s.blk) := by
  obtain ⟨t, ht, blk, build, key, len⟩ := exec_command_blk legal d
  obtain ⟨u, hu, blk', -⟩ := exec_command_blk (s := t) (by rwa [State.lenLegal, len]) d'
  exact ⟨t, u, ht, hu, by rw [blk', build, key, blk]⟩

/-- Settles O22: the commands are the transforms, and each transform undoes the other. -/
theorem roundTripRestoresBlock : Obligations.RoundTripRestoresBlock := by
  refine ⟨fun s legal => ⟨?_, ?_⟩, fun b k => ⟨cipherEnc_bijective b k, cipherDec_bijective b k,
    fun blk => ⟨cipherDec_cipherEnc b k blk, cipherEnc_cipherDec b k blk⟩⟩⟩
  · obtain ⟨t, u, ht, hu, blk⟩ := exec_command_then legal .enc .dec
    exact ⟨t, u, ht, hu, blk.trans (cipherDec_cipherEnc _ _ _)⟩
  · obtain ⟨t, u, ht, hu, blk⟩ := exec_command_then legal .dec .enc
    exact ⟨t, u, ht, hu, blk.trans (cipherEnc_cipherDec _ _ _)⟩

/- ## What the result depends on -/

/-- Settles O23: the result is a function of the build, KEY and BLK. -/
theorem resultDependsOnBlockAndKeyOnly : Obligations.ResultDependsOnBlockAndKeyOnly := by
  intro d s t legal legal' build blk key
  obtain ⟨s', hs', result, -⟩ := exec_command_blk legal d
  obtain ⟨t', ht', result', -⟩ := exec_command_blk legal' d
  exact ⟨s', t', hs', ht', by rw [result, result', build, blk, key]⟩

/-- The key reaches the transforms through its subkeys alone (43_engine_commands.md R231). -/
theorem cipherIn_congr {b : Build} {k k' : Key} (subkeys : cipherSubkeys b k = cipherSubkeys b k') (d : Dir)
    (blk : Block) : cipherIn d b k blk = cipherIn d b k' blk := by
  cases d with
  | enc => simp only [cipherIn, cipherEnc, subkeys]
  | dec => simp only [cipherIn, cipherDec, subkeys]

theorem cipherSubkeys_congr {b : Build} {k k' : Key} (h : ∀ j, j < b.nr → cipherSubkey b k j = cipherSubkey b k' j) :
    cipherSubkeys b k = cipherSubkeys b k' :=
  List.map_congr_left fun j hj => h j (List.mem_range.1 hj)

/-- Ten rotations by one bring KEY[26:14] to the top of the right half, and neither KEY[27] nor KEY[13:0]. -/
theorem topBitSource_tenRounds {j i : Nat} (round : j < 10) (h : i < 4) :
    14 ≤ topBitSource (j + 1) i ∧ topBitSource (j + 1) i < 27 := by
  rw [topBitSource]
  omega

/-- With NR = 10 and ROT = 1 the bits KEY[27] and KEY[13:0] enter no subkey (43_engine_commands.md R231). -/
theorem cipherSubkeys_tenRounds {b : Build} {k k' : Key} (rounds : b.nr = 10) (rot : b.rot = 1)
    (agree : ∀ i, i < 56 → i ≠ 27 → 14 ≤ i → k.getLsbD i = k'.getLsbD i) : cipherSubkeys b k = cipherSubkeys b k' := by
  refine cipherSubkeys_congr fun j hj => cipherSubkey_eq_iff.2 ⟨?_, ?_⟩
  · exact extractLsb'_eq_iff.2 fun i hi => agree _ (by omega) (by omega) (by omega)
  · refine extractLsb'_eq_iff.2 fun i hi => ?_
    obtain ⟨low, high⟩ := topBitSource_tenRounds (rounds ▸ hj) hi
    rw [rot, Nat.mul_one, getLsbD_rotl28_keyRight _ _ hi, getLsbD_rotl28_keyRight _ _ hi]
    exact agree _ (by omega) (by omega) low

/-- With ROT a multiple of 28 every subkey is KEY[55:24] (43_engine_commands.md R231; 42_key_scheduler.md R195). -/
theorem cipherSubkeys_of_turns {b : Build} {k k' : Key} (turns : b.rot % 28 = 0)
    (agree : k.extractLsb' 24 32 = k'.extractLsb' 24 32) : cipherSubkeys b k = cipherSubkeys b k' := by
  refine cipherSubkeys_congr fun j _ => ?_
  have whole : (j + 1) * b.rot % 28 = 0 := by rw [Nat.mul_mod, turns, Nat.mul_zero, Nat.zero_mod]
  have subkey (k : Key) : cipherSubkey b k j = k.extractLsb' 24 32 :=
    cipherSubkey_of_fixed (rotl28_eq_self _ whole) (rotl28_eq_self _ whole)
  rw [subkey, subkey, agree]

/-- With NR = 1 the one subkey is KEY[55:28] and the top of the rotated right half (42_key_scheduler.md R186, R187). -/
theorem cipherSubkeys_oneRound {b : Build} {k k' : Key} (one : b.nr = 1) (left : keyLeft k = keyLeft k')
    (right : (rotl28 (keyRight k) b.rot).extractLsb' 24 4 = (rotl28 (keyRight k') b.rot).extractLsb' 24 4) :
    cipherSubkeys b k = cipherSubkeys b k' := by
  refine cipherSubkeys_congr fun j hj => cipherSubkey_eq_iff.2 ⟨left, ?_⟩
  obtain rfl : j = 0 := by omega
  rwa [Nat.zero_add, Nat.one_mul]

/-- Settles O24: each agreement of the keys gives the same subkeys. -/
theorem unusedKeyBitsDoNotMatter : Obligations.UnusedKeyBitsDoNotMatter := by
  intro d s k legal agree
  have subkeys : cipherSubkeys s.build k = cipherSubkeys s.build s.key := by
    rcases agree with same | ⟨rounds, rot, bits⟩ | ⟨turns, field⟩ | ⟨one, left, right⟩
    · exact same
    · exact cipherSubkeys_tenRounds rounds rot bits
    · exact cipherSubkeys_of_turns turns field
    · exact cipherSubkeys_oneRound one left right
  obtain ⟨t, ht, blk, -⟩ := exec_command_blk legal d
  obtain ⟨t', ht', blk', -⟩ := exec_command_blk (s := { s with key := k }) legal d
  exact ⟨t, t', ht, ht', by rw [blk, blk', cipherIn_congr subkeys]⟩

/- ## The micro-steps of a command -/

/-- A running engine that is not reset makes the rounds it has left, one a step, and completes in the step after the
last (43_engine_commands.md R224, R226). -/
theorem run_of_engRounds {n : Nat} {s t : State} (rounds : engRounds n s = .next t)
    (noReset : s.pending.head? ≠ some .reset) (running : s.eng.phase = .run)
    (left : s.eng.round + n = s.build.nr) :
    run (n + 1) s = completeWrite (engFinish t) := by
  induction n generalizing s with
  | zero =>
    have done : ¬ s.eng.round < s.build.nr := by omega
    rw [run_succ, step_of_run noReset running, microStep, if_neg done]
    cases rounds
    rfl
  | succ n ih =>
    have more : s.eng.round < s.build.nr := by omega
    rw [run_succ, step_of_run noReset running, microStep, if_pos more]
    rw [engRounds] at rounds
    cases round : engRound s with
    | next s' =>
      rw [round] at rounds
      obtain ⟨k, ks, -, rfl⟩ := engRound_next round
      exact ih rounds noReset running (by simp only; omega)
    | fault r => simp [round] at rounds
    | refused r => simp [round] at rounds

/-- Up to NR rounds from where the checks have passed all succeed, and change the scheduler, the working block and the
round counter alone (43_engine_commands.md R224, R228). -/
theorem engRounds_of_engBegin {d : Dir} {s s₀ : State} {n : Nat} (begun : engBegin d s = .ok s₀)
    (le : n ≤ s.build.nr) :
    ∃ ks w, engRounds n s₀ = .next { s with ks := ks, eng := ⟨.run, d, n, w⟩ } := by
  obtain ⟨loaded, hload, rfl⟩ := engBegin_ok begun
  obtain ⟨ks, w, rounds, -, -⟩ :=
    engRounds_completes (s := engStart d { s with ks := loaded }) (n := n) (midCommand_of_load hload d)
      (by rwa [Nat.zero_add])
  exact ⟨ks, w, by rw [rounds, engStart_eng, Nat.zero_add]; rfl⟩

/-- Settles O26: the NR rounds complete, so the run and the command both end in their completion. -/
theorem microStepsRefineCommand : Obligations.MicroStepsRefineCommand := by
  intro d s s₀ begun noReset
  obtain ⟨ks, w, rounds⟩ := engRounds_of_engBegin begun (Nat.le_refl _)
  obtain ⟨loaded, -, rfl⟩ := engBegin_ok begun
  rw [run_of_engRounds rounds noReset rfl (Nat.zero_add _), exec_command, transform_of_engRounds begun rounds]
  rfl

/-- Settles O27: the rounds keep BLK and ERR, and a reset keeps nothing but the build and the port. -/
theorem resetAbandonsRunningCommand : Obligations.ResetAbandonsRunningCommand := by
  intro d s s₀ n begun le
  obtain ⟨ks, w, rounds⟩ := engRounds_of_engBegin begun le
  exact ⟨_, rounds, rfl, rfl, rfl, rfl, fun _ => step_of_reset rfl⟩

/- ## Commands that run no round -/

/-- Settles O16: NOP has no effect but its answer. -/
theorem nopChangesNothing : Obligations.NopChangesNothing := fun s => exec_access (i := .nop) rfl s

/-- An illegal command writes ERR alone (43_engine_commands.md R229). -/
theorem exec_illegal (w : Word) (s : State) :
    exec (.illegal w) s = .next { s with err := .illegalCmd, replies := s.replies ++ [.done] } :=
  exec_access (i := .illegal w) rfl s

/-- Settles O17: every other word decodes to ILLEGAL. -/
theorem illegalCommandWritesErrOnly : Obligations.IllegalCommandWritesErrOnly := by
  refine ⟨fun w s h0 h1 h2 => ?_, exec_illegal, rfl⟩
  rw [decode_cmdWrite_eq_illegal.2 ⟨h0, h1, h2⟩, exec_illegal]

/-- A command whose checks fail writes ERR alone (43_engine_commands.md R225). -/
theorem exec_command_error {d : Dir} {s : State} {e : ErrCode} (h : engBegin d s = .error e) :
    exec d.command s = .next { s with err := e, replies := s.replies ++ [.done] } := by
  rw [exec_command, transform_error h]
  rfl

theorem engBegin_of_blkBits {s : State} (h : s.len.blkBits ≠ 64#8) (d : Dir) : engBegin d s = .error .blockLen :=
  if_pos h

/-- A load with another key length than 56 fails (42_key_scheduler.md R182). -/
theorem ksLoad_of_keyBits {kbits : Byte} (h : kbits ≠ 56#8) (b : Build) (k : Key) : ksLoad b k kbits = .error .keyLen :=
  if_pos h

theorem engBegin_of_keyBits {s : State} (blk : s.len.blkBits = 64#8) (key : s.len.keyBits ≠ 56#8) (d : Dir) :
    engBegin d s = .error .keyLen := by
  rw [engBegin, if_neg (not_not.2 blk), ksLoad_of_keyBits key]

/-- Settles O20: the checks in their order. -/
theorem lengthChecksWriteErrOnly : Obligations.LengthChecksWriteErrOnly :=
  fun d _ => ⟨fun blk => exec_command_error (engBegin_of_blkBits blk d),
    fun blk key => exec_command_error (engBegin_of_keyBits blk key d), fun b k _ h => ksLoad_of_keyBits h b k⟩

/- ## Register accesses -/

/-- Settles O40: each read answers its view of the state. -/
theorem readsReturnRegisters : Obligations.ReadsReturnRegisters := fun s =>
  ⟨exec_access (i := .rdCmd) rfl s, exec_access (i := .rdStatus) rfl s, exec_access (i := .rdConfig) rfl s,
    exec_access (i := .rdLen) rfl s, exec_access (i := .rdBlkHi) rfl s, exec_access (i := .rdBlkLo) rfl s,
    exec_access (i := .rdKeyHi) rfl s, exec_access (i := .rdKeyLo) rfl s⟩

/- The fields of LEN (30_encoding.md R106). -/

theorem lenView_blkBits (s : State) : (lenView s).extractLsb' 0 8 = s.len.blkBits := by
  rw [lenView, BitVec.extractLsb'_setWidth_of_le (by decide), BitVec.extractLsb'_append_eq_right]

theorem lenView_keyBits (s : State) : (lenView s).extractLsb' 8 8 = s.len.keyBits := by
  rw [lenView, BitVec.extractLsb'_setWidth_of_le (by decide), BitVec.extractLsb'_append_eq_left]

/-- Settles O43: the write is its effect, and the LEN word shows the fields. -/
theorem lenWriteStoresFields : Obligations.LenWriteStoresFields := fun s v =>
  ⟨exec_access (i := .wrLen v) rfl s, lenView_blkBits s, lenView_keyBits s, lenView_reserved s, lenView_resetOf s.build⟩

/-- Settles O44: a write joins its word with the half it keeps. -/
theorem blockWritesReplaceHalves : Obligations.BlockWritesReplaceHalves := fun s v =>
  ⟨⟨_, exec_access (i := .wrBlkHi v) rfl s, leftHalf_joinHalves v _, rightHalf_joinHalves v _, rfl⟩,
    _, exec_access (i := .wrBlkLo v) rfl s, rightHalf_joinHalves _ v, leftHalf_joinHalves _ v, rfl⟩

/-- Settles O45: a write joins the bits of its word with the part it keeps. -/
theorem keyWritesReplaceParts : Obligations.KeyWritesReplaceParts := fun s v =>
  ⟨⟨_, exec_access (i := .wrKeyHi v) rfl s, BitVec.extractLsb'_append_eq_left, BitVec.extractLsb'_append_eq_right, rfl⟩,
    _, exec_access (i := .wrKeyLo v) rfl s, BitVec.extractLsb'_append_eq_right, BitVec.extractLsb'_append_eq_left, rfl⟩

/-- Settles O46: neither write has an effect but its answer. -/
theorem readOnlyWritesIgnored : Obligations.ReadOnlyWritesIgnored := fun s v =>
  ⟨exec_access (i := .wrStatus v) rfl s, exec_access (i := .wrConfig v) rfl s⟩

end Sys2Proof.Machine
end

section
/-!
PROOFS. The statements derived from 60_exceptions.md: the order of a command's checks (R264) and of a retrieval's
(42_key_scheduler.md R190), and which operations write ERR (R265).

Both rest on `exec_command_err`: ENC and DEC complete with the code of the first check that fails, or with E_NONE, for
once the checks pass no retrieval can fail.
-/

namespace Sys2Proof.Machine

/- ## ERR after a command -/

/-- ENC and DEC write ERR on every run: the code of the first check that fails, the block length before the key length,
or E_NONE (60_exceptions.md R264, R265). -/
theorem exec_command_err (d : Dir) (s : State) :
    ∃ t, exec d.command s = .next t ∧
      t.err = if s.lenLegal then .none else if s.len.blkBits = 64#8 then .keyLen else .blockLen := by
  rcases engBegin_cases d s with ⟨blk, failed⟩ | ⟨blk, key, failed⟩ | ⟨blk, key, ks, -, begun⟩
  · exact ⟨_, exec_command_error failed, by simp [lenLegal_iff, blk]⟩
  · exact ⟨_, exec_command_error failed, by simp [lenLegal_iff, blk, key]⟩
  · obtain ⟨ks, w, finished, -⟩ := transform_ok begun
    rw [exec_command, finished]
    exact ⟨_, rfl, by simp [lenLegal_iff, blk, key]⟩

/-- The words 1 and 2 are the commands of the engine (30_encoding.md R103). -/
theorem decode_cmdWrite_command {w : Word} (h : w = 1#32 ∨ w = 2#32) :
    ∃ d : Dir, decode (cmdWrite w) = d.command := by
  rcases h with rfl | rfl
  · exact ⟨.enc, by decide⟩
  · exact ⟨.dec, by decide⟩

/- ## The errors of a retrieval, in their order (42_key_scheduler.md R190) -/

/-- The direction that a scheduler locked to `d` rejects (42_key_scheduler.md R188, R189). -/
def Dir.other : Dir → Dir
  | .enc => .dec
  | .dec => .enc

theorem ksNextIn_uninit {ks : Scheduler} (unloaded : ks.state = .uninit) (nr : Nat) (d : Dir) :
    ksNextIn nr d ks = .raise .ksUninit := by
  cases d <;> exact if_pos unloaded

theorem ksNextIn_mixed {ks : Scheduler} {d : Dir} (loaded : ks.state ≠ .uninit) (locked : ks.dir = d.other.ksDir)
    (nr : Nat) : ksNextIn nr d ks = .raise .ksMixed := by
  cases d <;> exact (if_neg loaded).trans (if_pos locked)

theorem ksNextIn_exhausted {nr : Nat} {ks : Scheduler} {d : Dir} (loaded : ks.state ≠ .uninit)
    (unlocked : ks.dir ≠ d.other.ksDir) (spent : ks.taken = nr) : ksNextIn nr d ks = .raise .ksExhausted := by
  cases d <;> exact (if_neg loaded).trans ((if_neg unlocked).trans (if_pos spent))

/- ## The statements -/

/-- Settles O21: the three meanings of a command word, and the retrieval's checks in either direction. -/
theorem firstFailingCheckIsReported : Obligations.FirstFailingCheckIsReported := by
  refine ⟨fun w s => ?_, fun nr ks => ?_⟩
  · by_cases nop : w = 0#32
    · subst nop
      exact ⟨_, nopChangesNothing s, by simp⟩
    by_cases command : w = 1#32 ∨ w = 2#32
    · obtain ⟨d, hd⟩ := decode_cmdWrite_command command
      obtain ⟨t, ht, err⟩ := exec_command_err d s
      rw [hd]
      exact ⟨t, ht, fun ⟨_, neither⟩ => absurd command (not_or.2 neither), fun zero => absurd zero nop,
        fun _ blk => by simp [err, lenLegal_iff, blk],
        fun _ blk key => by simp [err, lenLegal_iff, blk, key],
        fun _ blk key => by simp [err, lenLegal_iff, blk, key]⟩
    · rw [decode_cmdWrite_eq_illegal.2 ⟨nop, not_or.1 command⟩]
      exact ⟨_, exec_illegal w s, by simp [nop, command]⟩
  · exact ⟨fun unloaded => ⟨ksNextIn_uninit unloaded nr .enc, ksNextIn_uninit unloaded nr .dec⟩,
      fun loaded locked => ksNextIn_mixed (d := .enc) loaded locked nr,
      fun loaded locked => ksNextIn_mixed (d := .dec) loaded locked nr,
      ksNextIn_exhausted (d := .enc), ksNextIn_exhausted (d := .dec)⟩

/-- Settles O52: the frame of every operation, the outcomes of the commands, and reset. -/
theorem errLifetime : Obligations.ErrLifetime := by
  refine ⟨fun i s t silent h => ?_, exec_command_err, fun w s => ⟨_, exec_illegal w s, rfl⟩,
    fun s rest reset => ⟨_, step_of_reset reset, rfl⟩⟩
  obtain ⟨-, -, -, -, -, err, -⟩ := operationsKeepOtherState i s t h
  exact err silent

end Sys2Proof.Machine
end
